-- ==== Sys2Proof/Word.lean ====
section
/-! DEFINITION. The words of the part: what the manual itself treats as bits (00_scope.md, "Position arithmetic"; R4, R9, R157). -/

namespace Sys2Proof

/-- One character of a serial link, or one byte of a payload (R181, R213). -/
abbrev Byte := BitVec 8

/-- A value of the 24-bit position counter, in position steps (R4). -/
abbrev Position := BitVec 24

/-- A can serial (R9). -/
abbrev Serial := BitVec 16

/-- A recipe generation, 0 … 255, wrapping (R157). -/
abbrev Generation := BitVec 8

/-- A moment, counted in ticks of the 20 MHz reference clock (R39, R215). -/
abbrev Moment := Nat

end Sys2Proof
end

