-- ==== Sys2Proof/Config.lean ====
section
/-! DEFINITION. What the manual leaves open and the model leaves free. -/

namespace Sys2Proof

/-- A FREE VALUE. The manual lets events that fall together be taken in either order. Applied to the model's own counter
`State.choices`, this constant makes each such choice; it has no body, so nothing can be proved of its value, and what is
proved of the model holds for every order. (Log entries 2 and 3.) -/
opaque Config.freeChoice : Nat → Nat

end Sys2Proof
end

