-- ==== Sys2Proof/Syntax.lean ====
section
/-! DEFINITION. The commands of the part: one constructor of `Instr` for every row of spec/opcode_table.json. -/

namespace Sys2Proof

/-- A master link (00_scope.md, "Terms"). It is also the holder of a BLOCKED valve (R129). -/
inductive Link where
  | filler
  | supervisor
  | quality
  deriving DecidableEq, Repr

/-- A serial channel: the three master links and the reader link (chapter 9). -/
inductive Channel where
  | filler
  | supervisor
  | quality
  | reader
  deriving DecidableEq, Repr

/-- The levels of the two strap pins of a channel, first then second; true is high (R181, R215). -/
structure StrapPair where
  first  : Bool
  second : Bool
  deriving DecidableEq, Repr

/-- The levels of all eight strap pins (R215). -/
structure Straps where
  filler     : StrapPair
  supervisor : StrapPair
  quality    : StrapPair
  reader     : StrapPair
  deriving DecidableEq, Repr

/-- The request kinds of the catalogue (section 12.2, R198). -/
inductive Kind where
  | fillReport
  | doseQuery
  | valveHold
  | valveFree
  | valveAccept
  | baseSet
  | valveView
  | layoutLoad
  | calLoad
  | recipeLoad
  | recordRead
  | start
  | stop
  | clear
  | flush
  | restart
  | freeze
  | thaw
  | thawAll
  | zeroCapture
  | spanCapture
  | captureResult
  | canListTake
  | listLevelSet
  | queueView
  | statusRead
  | causeTake
  | causeEnable
  | linkStats
  deriving DecidableEq, Repr

/-- The commands. A request command is a complete good frame of its kind taken by the request decoder of link `l`, with the
payload `p` the frame carried (R195); a frame of the filler link also brings the stamp of its lead character (R14). The other
commands are the events on the pins, the ends of the part's own times, and the part's own steps on what waits in its buffers (log entries
17 and 21). -/
inductive Instr where
  | fillReport (l : Link) (p : List Byte) (stamp : Position)
  | doseQuery (l : Link) (p : List Byte)
  | valveHold (l : Link) (p : List Byte)
  | valveFree (l : Link) (p : List Byte)
  | valveAccept (l : Link) (p : List Byte)
  | baseSet (l : Link) (p : List Byte)
  | valveView (l : Link) (p : List Byte)
  /-- The VALVE VIEW whose payload is the valve `v` and the clear flag 1. -/
  | valveViewClear (l : Link) (v : Byte)
  | layoutLoad (l : Link) (p : List Byte)
  | calLoad (l : Link) (p : List Byte)
  | recipeLoad (l : Link) (p : List Byte)
  | recordRead (l : Link) (p : List Byte)
  | start (l : Link) (p : List Byte)
  | stop (l : Link) (p : List Byte)
  | clear (l : Link) (p : List Byte)
  | flush (l : Link) (p : List Byte)
  | restart (l : Link) (p : List Byte)
  | freeze (l : Link) (p : List Byte)
  | thaw (l : Link) (p : List Byte)
  | thawAll (l : Link) (p : List Byte)
  | zeroCapture (l : Link) (p : List Byte)
  | spanCapture (l : Link) (p : List Byte)
  | captureResult (l : Link) (p : List Byte)
  | canListTake (l : Link) (p : List Byte)
  | listLevelSet (l : Link) (p : List Byte)
  | queueView (l : Link) (p : List Byte)
  | statusRead (l : Link) (p : List Byte)
  | causeTake (l : Link) (p : List Byte)
  | causeEnable (l : Link) (p : List Byte)
  | linkStats (l : Link) (p : List Byte)
  /-- The LINK STATS whose payload is the clear flag 1. -/
  | linkStatsClear (l : Link)
  /-- A good frame whose kind is none of the catalogue's. -/
  | unknownKind (l : Link) (kind : Byte) (p : List Byte)
  | encoderPulse
  | eyeBlockingEdge
  | eyeClearingEdge
  | conversionComplete
  | conversionOverflow
  | confirmInputActive
  | confirmQualified
  | confirmInputInactive
  | confirmWindowExpiry
  | rejectPulseEnd
  | lcmdFallingEdge
  | lcmdRisingEdge
  | lcmdSpellTimeout
  | lineClear
  | lineFreeze
  | lineThaw
  | lineFlush
  | lineZeroCapture
  | lineCommandBadCount
  /-- A character completes on the line: its data bits, its parity bit and its stop bit as received (R181, R182). -/
  | characterReceived (l : Link) (data : Byte) (parityBit stopBit : Bool)
  | gapEntry (l : Link)
  | linkBreak (l : Link)
  | pauseExpiry (l : Link)
  | frameEntryTaken (l : Link)
  | heldAnswerPlaced (l : Link)
  | characterSent (ch : Channel)
  | readerCharacterReceived (data : Byte) (parityBit stopBit : Bool)
  | readerGapEntry
  | readerBreak
  | readerEntryTaken
  | messageMatch
  | attentionHoldExpiry (l : Link)
  /-- Power is applied; the strap pins stand at the levels given. -/
  | powerOn (straps : Straps)
  | resetPinAssert
  /-- The reset pin is released; the strap pins stand at the levels given. -/
  | resetPinRelease (straps : Straps)
  | conversionStart
  | breakEnd (ch : Channel)
  deriving DecidableEq, Repr

end Sys2Proof
end

