-- ==== Sys2Proof/Decode.lean ====
section
/-! DEFINITION. From the codes of a request frame to the command it is, and back (section 12.2), and the host's reading of a
table word. The table gives no row any bits, so no word spells a command. -/

namespace Sys2Proof

/-- The kind code of each request (section 12.2). -/
def Kind.code : Kind → Byte
  | .fillReport => 0x01
  | .doseQuery => 0x02
  | .valveHold => 0x03
  | .valveFree => 0x04
  | .valveAccept => 0x05
  | .baseSet => 0x06
  | .valveView => 0x07
  | .layoutLoad => 0x08
  | .calLoad => 0x09
  | .recipeLoad => 0x0A
  | .recordRead => 0x0B
  | .start => 0x0C
  | .stop => 0x0D
  | .clear => 0x0E
  | .flush => 0x0F
  | .restart => 0x10
  | .freeze => 0x11
  | .thaw => 0x12
  | .thawAll => 0x13
  | .zeroCapture => 0x14
  | .spanCapture => 0x15
  | .captureResult => 0x16
  | .canListTake => 0x17
  | .listLevelSet => 0x18
  | .queueView => 0x19
  | .statusRead => 0x1A
  | .causeTake => 0x1B
  | .causeEnable => 0x1C
  | .linkStats => 0x1D

/-- The kinds of the catalogue, in the order of their codes (section 12.2). -/
def Kind.all : List Kind :=
  [.fillReport, .doseQuery, .valveHold, .valveFree, .valveAccept, .baseSet, .valveView, .layoutLoad, .calLoad,
    .recipeLoad, .recordRead, .start, .stop, .clear, .flush, .restart, .freeze, .thaw, .thawAll, .zeroCapture,
    .spanCapture, .captureResult, .canListTake, .listLevelSet, .queueView, .statusRead, .causeTake, .causeEnable,
    .linkStats]

/-- The kind a code names; none for a code outside the catalogue (R197). -/
def Kind.ofCode (code : Byte) : Option Kind :=
  Kind.all.find? (fun k => k.code == code)

/-- The command that a complete good frame of link `l` is, from its kind, its payload and its lead's stamp (R188, R195). The
stamp matters to FILL REPORT alone, and a link that keeps none passes 0. -/
def requestCommand (l : Link) (kind : Byte) (p : List Byte) (stamp : Option Position) : Instr :=
  match Kind.ofCode kind with
  | some .fillReport => .fillReport l p (stamp.getD 0)
  | some .doseQuery => .doseQuery l p
  | some .valveHold => .valveHold l p
  | some .valveFree => .valveFree l p
  | some .valveAccept => .valveAccept l p
  | some .baseSet => .baseSet l p
  | some .valveView =>
    match p with
    | [v, flag] => if flag = 1 then .valveViewClear l v else .valveView l [v, flag]
    | other => .valveView l other
  | some .layoutLoad => .layoutLoad l p
  | some .calLoad => .calLoad l p
  | some .recipeLoad => .recipeLoad l p
  | some .recordRead => .recordRead l p
  | some .start => .start l p
  | some .stop => .stop l p
  | some .clear => .clear l p
  | some .flush => .flush l p
  | some .restart => .restart l p
  | some .freeze => .freeze l p
  | some .thaw => .thaw l p
  | some .thawAll => .thawAll l p
  | some .zeroCapture => .zeroCapture l p
  | some .spanCapture => .spanCapture l p
  | some .captureResult => .captureResult l p
  | some .canListTake => .canListTake l p
  | some .listLevelSet => .listLevelSet l p
  | some .queueView => .queueView l p
  | some .statusRead => .statusRead l p
  | some .causeTake => .causeTake l p
  | some .causeEnable => .causeEnable l p
  | some .linkStats => if p = [1] then .linkStatsClear l else .linkStats l p
  | none => .unknownKind l kind p

/-- What a request frame carries to the decoder of its link. -/
structure RequestFrame where
  link    : Link
  kind    : Byte
  payload : List Byte
  stamp   : Option Position
  deriving DecidableEq, Repr

/-- The frame that a request command is; none for an event or a step of the part. -/
def Instr.frame? : Instr → Option RequestFrame
  | .fillReport l p st => some ⟨l, Kind.fillReport.code, p, if l = .filler then some st else none⟩
  | .doseQuery l p => some ⟨l, Kind.doseQuery.code, p, none⟩
  | .valveHold l p => some ⟨l, Kind.valveHold.code, p, none⟩
  | .valveFree l p => some ⟨l, Kind.valveFree.code, p, none⟩
  | .valveAccept l p => some ⟨l, Kind.valveAccept.code, p, none⟩
  | .baseSet l p => some ⟨l, Kind.baseSet.code, p, none⟩
  | .valveView l p => some ⟨l, Kind.valveView.code, p, none⟩
  | .valveViewClear l v => some ⟨l, Kind.valveView.code, [v, 1], none⟩
  | .layoutLoad l p => some ⟨l, Kind.layoutLoad.code, p, none⟩
  | .calLoad l p => some ⟨l, Kind.calLoad.code, p, none⟩
  | .recipeLoad l p => some ⟨l, Kind.recipeLoad.code, p, none⟩
  | .recordRead l p => some ⟨l, Kind.recordRead.code, p, none⟩
  | .start l p => some ⟨l, Kind.start.code, p, none⟩
  | .stop l p => some ⟨l, Kind.stop.code, p, none⟩
  | .clear l p => some ⟨l, Kind.clear.code, p, none⟩
  | .flush l p => some ⟨l, Kind.flush.code, p, none⟩
  | .restart l p => some ⟨l, Kind.restart.code, p, none⟩
  | .freeze l p => some ⟨l, Kind.freeze.code, p, none⟩
  | .thaw l p => some ⟨l, Kind.thaw.code, p, none⟩
  | .thawAll l p => some ⟨l, Kind.thawAll.code, p, none⟩
  | .zeroCapture l p => some ⟨l, Kind.zeroCapture.code, p, none⟩
  | .spanCapture l p => some ⟨l, Kind.spanCapture.code, p, none⟩
  | .captureResult l p => some ⟨l, Kind.captureResult.code, p, none⟩
  | .canListTake l p => some ⟨l, Kind.canListTake.code, p, none⟩
  | .listLevelSet l p => some ⟨l, Kind.listLevelSet.code, p, none⟩
  | .queueView l p => some ⟨l, Kind.queueView.code, p, none⟩
  | .statusRead l p => some ⟨l, Kind.statusRead.code, p, none⟩
  | .causeTake l p => some ⟨l, Kind.causeTake.code, p, none⟩
  | .causeEnable l p => some ⟨l, Kind.causeEnable.code, p, none⟩
  | .linkStats l p => some ⟨l, Kind.linkStats.code, p, none⟩
  | .linkStatsClear l => some ⟨l, Kind.linkStats.code, [1], none⟩
  | .unknownKind l kind p => some ⟨l, kind, p, none⟩
  | .encoderPulse => none
  | .eyeBlockingEdge => none
  | .eyeClearingEdge => none
  | .conversionComplete => none
  | .conversionOverflow => none
  | .confirmInputActive => none
  | .confirmQualified => none
  | .confirmInputInactive => none
  | .confirmWindowExpiry => none
  | .rejectPulseEnd => none
  | .lcmdFallingEdge => none
  | .lcmdRisingEdge => none
  | .lcmdSpellTimeout => none
  | .lineClear => none
  | .lineFreeze => none
  | .lineThaw => none
  | .lineFlush => none
  | .lineZeroCapture => none
  | .lineCommandBadCount => none
  | .characterReceived _ _ _ _ => none
  | .gapEntry _ => none
  | .linkBreak _ => none
  | .pauseExpiry _ => none
  | .frameEntryTaken _ => none
  | .heldAnswerPlaced _ => none
  | .characterSent _ => none
  | .readerCharacterReceived _ _ _ => none
  | .readerGapEntry => none
  | .readerBreak => none
  | .readerEntryTaken => none
  | .messageMatch => none
  | .attentionHoldExpiry _ => none
  | .powerOn _ => none
  | .resetPinAssert => none
  | .resetPinRelease _ => none
  | .conversionStart => none
  | .breakEnd _ => none

/-- The sum of characters modulo 256 (R188). -/
def sumBytes : List Byte → Byte
  | [] => 0
  | b :: bs => b + sumBytes bs

/-- The check that makes the sum of the checked characters 0 modulo 256 (section 9.4, R189). -/
def checkByte (checked : List Byte) : Byte := - sumBytes checked

/-- The characters of a request frame: lead, kind, length, payload, check (section 9.4). -/
def frameCharacters (kind : Byte) (p : List Byte) : List Byte :=
  0x02 :: kind :: BitVec.ofNat 8 p.length :: (p ++ [checkByte (kind :: BitVec.ofNat 8 p.length :: p)])

/-- The command that the word `w` of `nbits` bits spells by the table's bits. No row of spec/opcode_table.json has bits, so
there is none. -/
def decodeTableWord (_nbits _w : Nat) : Option Instr := none

end Sys2Proof
end

