-- ==== Sys2Proof/Machine/State.lean ====
section
/-! DEFINITION. The state of the part, block by block (00_scope.md, "Block overview"), its value after reset, and the reasons a
step can stop. -/

namespace Sys2Proof.Machine

/-! ## One value for each master link -/

/-- One value for each of the three master links. -/
structure PerLink (α : Type) where
  filler     : α
  supervisor : α
  quality    : α
  deriving DecidableEq, Repr

/-! ## Can records and summaries (chapters 1 and 4) -/

/-- Origin of a record (R7). -/
inductive Origin where
  | filled
  | orphan
  deriving DecidableEq, Repr

/-- Fill status of a record (R7, R11). -/
inductive FillStatus where
  | normal
  | short
  | blockedFill
  deriving DecidableEq, Repr

/-- Stage of a record (R8). -/
inductive Stage where
  | filled
  | onPlatform
  | weighed
  | read
  | missed
  deriving DecidableEq, Repr

/-- The causes of a NO_READING (R49). -/
inductive NoReadingCause where
  | bridged
  | tooFew
  | zeroLost
  | cellFault
  | flushedDuringDwell
  deriving DecidableEq, Repr

/-- A reading as posted: the gross and the net weight in cg are present exactly when it is VALID (R49, R50). -/
inductive Reading where
  | valid (gross net : Int)
  | noReading (cause : NoReadingCause)
  deriving DecidableEq, Repr

/-- Code status of a record (R7, R76). -/
inductive CodeStatus where
  | notYet
  | matched
  | mismatch
  | noRead
  | garbled
  | notChecked
  deriving DecidableEq, Repr

/-- The twelve reject reasons, in the verdict order of R85. -/
inductive Reason where
  | halted
  | missed
  | orphan
  | blockedFill
  | fillShort
  | noReading
  | undecided
  | underweight
  | overweight
  | codeNoRead
  | codeMismatch
  | probation
  deriving DecidableEq, Repr

/-- A verdict (R85, R93). -/
inductive Verdict where
  | accept
  | reason (r : Reason)
  | flushed
  deriving DecidableEq, Repr

/-- A can record of the transit queue (R7). The reasons are kept without repeats, in the verdict order. -/
structure CanRecord where
  serial     : Serial
  origin     : Origin
  valve      : Option Nat
  generation : Generation
  discharge  : Position
  doseUsed   : Option Nat
  fillStatus : FillStatus
  stage      : Stage
  reading    : Option Reading
  code       : Option (List Byte)
  codeStatus : CodeStatus
  reasons    : List Reason
  verdict    : Option Verdict
  deriving DecidableEq, Repr

/-- A can summary (R91). `awaiting` holds while the can's confirm window is open: the summary is then pending. -/
structure CanSummary where
  serial      : Serial
  origin      : Origin
  generation  : Generation
  valve       : Option Nat
  doseUsed    : Option Nat
  reading     : Option Reading
  code        : Option (List Byte)
  codeStatus  : CodeStatus
  reasons     : List Reason
  verdict     : Verdict
  unconfirmed : Bool
  awaiting    : Bool
  deriving DecidableEq, Repr

/-- The tracking unit (chapter 1). The queue is oldest first. -/
structure Tracking where
  position : Position
  residue  : Nat
  queue    : List CanRecord
  serial   : Serial
  slip     : Nat
  deriving DecidableEq, Repr

/-! ## Weigh unit (chapter 2) -/

/-- A weighing in progress (R44): bound to a serial or against nothing (`none`), begun at a position, with the conversions
still to be skipped, the dwell buffer in order of completion, and the cell fault mark of R48. -/
structure Weighing where
  binding : Option Serial
  arrival : Position
  settle  : Nat
  buffer  : List Int
  mark    : Bool
  deriving DecidableEq, Repr

/-- Platform state (R35); the weighing in progress is part of DWELL. -/
inductive Platform where
  | idle
  | empty
  | dwell (w : Weighing)
  | waitClear
  deriving DecidableEq, Repr

/-- Zero state (R35). -/
inductive ZeroState where
  | normal
  | zeroFault
  deriving DecidableEq, Repr

/-- What the period counter is doing (R39, R40): stopped (IDLE), waiting for the rising edge that begins a conversion, or
counting a conversion. -/
inductive Conversion where
  | stopped
  | waiting
  | running
  deriving DecidableEq, Repr

/-- The mark of an invalid conversion (R40, R41). -/
inductive InvalidMark where
  | overflow
  | outOfBand
  deriving DecidableEq, Repr

/-- Kind of a capture (R61). -/
inductive CaptureKind where
  | none
  | zero
  | span
  deriving DecidableEq, Repr

/-- Outcome of a capture (R61). -/
inductive CaptureOutcome where
  | none
  | inProgress
  | calOk
  | calRange
  | calAborted
  deriving DecidableEq, Repr

/-- Abort cause of a capture (R60). -/
inductive AbortCause where
  | eye
  | start
  | restart
  | calLoad
  deriving DecidableEq, Repr

/-- The capture record (R61) with the sum of the frequencies taken so far (R57). A capture is in progress exactly while the
outcome is IN_PROGRESS. -/
structure Capture where
  kind       : CaptureKind
  outcome    : CaptureOutcome
  count      : Nat
  sum        : Nat
  mean       : Option Nat
  testMass   : Option Nat
  newValue   : Option Nat
  abortCause : Option AbortCause
  deriving DecidableEq, Repr

/-- The weigh unit (table of chapter 2). -/
structure WeighUnit where
  platform    : Platform
  zeroState   : ZeroState
  fz          : Option Nat
  span        : Option Nat
  conversion  : Conversion
  period      : Nat
  latest      : Option Nat
  cellRun     : Nat
  cellFault   : Bool
  settleCount : Nat
  zeroRun     : Nat
  capture     : Capture
  deriving DecidableEq, Repr

/-! ## Code unit (chapter 3) -/

/-- The message assembler (R65); the text buffer is part of COLLECTING. -/
inductive MessageAssembler where
  | idle
  | collecting (text : List Byte)
  | discard
  deriving DecidableEq, Repr

/-- Flow state toward the reader, OPEN or HELD (R70). -/
inductive FlowState where
  | opened
  | held
  deriving DecidableEq, Repr

/-- A completed message waiting for its matching (R63, R67, R68): its text, absent for a garbled one, and its stamp. -/
structure Message where
  text  : Option (List Byte)
  stamp : Position
  deriving DecidableEq, Repr

/-- The code unit (table of chapter 3). -/
structure CodeUnit where
  assembler : MessageAssembler
  flow      : FlowState
  stray     : Nat
  message   : Option Message
  deriving DecidableEq, Repr

/-! ## Verdict and gate unit, and the can list (chapter 4) -/

/-- An open confirm window (R89). -/
structure Window where
  serial : Serial
  expiry : Moment
  deriving DecidableEq, Repr

/-- The verdict and gate unit. `drive` is the moment the pulse ends, absent while OFF (R87); `qualify` is the moment from
which the confirm input has been active while the level is still INACTIVE (R88). -/
structure GateUnit where
  drive        : Option Moment
  confirmLevel : Bool
  qualify      : Option Moment
  windows      : List Window
  unconfirmed  : Nat
  deriving DecidableEq, Repr

/-- The can list (R94, R96). The ring is oldest first, and the last `unread` summaries are the unread ones, so the read
position is the place `ring.length - unread` (log entry 22). -/
structure CanList where
  ring   : List CanSummary
  unread : Nat
  level  : Nat
  armed  : Bool
  deriving DecidableEq, Repr

/-! ## Dose unit (chapters 5 and 6) -/

/-- Valve state (R128). The holder is part of BLOCKED and the probation left part of PROBATION, as R129 has them present or
non-zero in those states alone. -/
inductive ValveState where
  | unused
  | active
  | probation (left : Nat)
  | suspect
  | blocked (holder : Link)
  deriving DecidableEq, Repr

/-- An entry of the valve table (R98). -/
structure Valve where
  state       : ValveState
  baseOffset  : Int
  accumulator : Int
  limitRun    : Nat
  ootRun      : Nat
  weighed     : Nat
  rejected    : Nat
  netWindow   : List Int
  alertArmed  : Bool
  lastDose    : Nat
  deriving DecidableEq, Repr

/-- The freeze source set (R120): which of its two members are present. -/
structure FreezeSet where
  line       : Bool
  supervisor : Bool
  deriving DecidableEq, Repr

/-- The dose unit. The valve table holds valve `v` at place `v - 1`. -/
structure DoseUnit where
  valves     : List Valve
  lineOffset : Int
  centering  : Nat
  freeze     : FreezeSet
  deriving DecidableEq, Repr

/-! ## Settings store (chapter 7) -/

/-- The layout record (R149). -/
structure Layout where
  valveCount       : Nat
  divider          : Nat
  platformDistance : Nat
  platformWindow   : Nat
  readerDistance   : Nat
  readerWindow     : Nat
  rejectDistance   : Nat
  maxDwell         : Nat
  slipAlarm        : Nat
  gatePulse        : Nat
  confirmTime      : Nat
  deriving DecidableEq, Repr

/-- The calibration record (R151). -/
structure Calibration where
  periodSetting : Nat
  span          : Nat
  zeroFigure    : Nat
  zeroRate      : Nat
  zeroBand      : Nat
  settleSkip    : Nat
  tailDrop      : Nat
  minCount      : Nat
  zeroSettle    : Nat
  deriving DecidableEq, Repr

/-- The recipe record as stored: every field of R154 but the keep-trims flag (R156). -/
structure Recipe where
  targetNet       : Nat
  tolUnder        : Nat
  tolOver         : Nat
  tareNominal     : Nat
  nominalDose     : Nat
  doseMin         : Nat
  doseMax         : Nat
  gain            : Nat
  shift           : Nat
  trimLimit       : Nat
  deadBand        : Nat
  limitAlarm      : Nat
  ootAlarm        : Nat
  lineLimit       : Nat
  centerThreshold : Nat
  centerEvery     : Nat
  probationCount  : Nat
  alertBand       : Nat
  codePattern     : Option (List Byte)
  codeRequired    : Bool
  deriving DecidableEq, Repr

/-- A recipe the store holds, with its generation number and its generation count (R157, R158). -/
structure HeldRecipe where
  recipe     : Recipe
  generation : Generation
  count      : Nat
  deriving DecidableEq, Repr

/-- The settings store. -/
structure Store where
  layout         : Option Layout
  calibration    : Option Calibration
  current        : Option HeldRecipe
  previous       : Option HeldRecipe
  nextGeneration : Generation
  deriving DecidableEq, Repr

/-! ## State controller (chapter 8) -/

/-- Operating state (R169). -/
inductive OpState where
  | config
  | ready
  | run
  | halt
  deriving DecidableEq, Repr

/-- Line command decoder (R178); the count of pulses so far is part of the states that use it. -/
inductive LineDecoder where
  | idle
  | lead
  | gap
  | pulse (count : Nat)
  | space (count : Nat)
  | recover
  deriving DecidableEq, Repr

/-- The last line command: its number, 1 … 5, and whether it was TAKEN or IGNORED (R179). -/
structure LastCommand where
  number : Nat
  taken  : Bool
  deriving DecidableEq, Repr

/-- The state controller. `spellStart` is the moment of the edge from which the current spell is timed (R178). -/
structure Control where
  state       : OpState
  lineStop    : Bool
  decoder     : LineDecoder
  spellStart  : Moment
  errors      : Nat
  lastCommand : Option LastCommand
  deriving DecidableEq, Repr

/-! ## Serial channels and request decoders (chapters 9 and 10) -/

/-- An entry of a receive FIFO (R63, R182, R183): a character with its flags, or a gap entry (`char` absent). The stamp is
kept on the filler and reader links. -/
structure Entry where
  char    : Option Byte
  parity  : Bool
  framing : Bool
  brk     : Bool
  overrun : Bool
  stamp   : Option Position
  deriving DecidableEq, Repr

/-- The receiver of a channel. `lost` holds after one or more entries were lost, until the next entry is stored (R182);
`silence` is the moment the last character was judged, while the silence after its stored entry is being watched (R64, R183);
`breakLow` holds from a recognised break until the line goes high (R184). -/
structure Receiver where
  fifo     : List Entry
  lost     : Bool
  silence  : Option Moment
  breakLow : Bool
  deriving DecidableEq, Repr

/-- A character on the transmit line, and the moment it began (R191). -/
structure Sending where
  char  : Byte
  began : Moment
  deriving DecidableEq, Repr

/-- The transmitter of a channel (R191). `sending` is the last character begun; it is on the line until it has ended. -/
structure Transmitter where
  fifo    : List Byte
  sending : Option Sending
  deriving DecidableEq, Repr

/-- A serial channel: the strap levels sampled at the last reset, its receiver and its transmitter (chapter 9). -/
structure Port where
  straps : StrapPair
  rx     : Receiver
  tx     : Transmitter
  deriving DecidableEq, Repr

/-- Reception phase of a master link (R185): BETWEEN, or INSIDE with what is expected next. -/
inductive RxPhase where
  | between
  | kind
  | length
  | payload (left : Nat)
  | check
  deriving DecidableEq, Repr

/-- The frame assembler of a master link (R187), with the frame so far and, on the filler link, the lead's stamp. -/
inductive FrameAssembler where
  | hunt
  | kind (stamp : Option Position)
  | length (stamp : Option Position) (kind : Byte)
  | payload (stamp : Option Position) (kind length : Byte) (sofar : List Byte)
  | check (stamp : Option Position) (kind length : Byte) (payload : List Byte)
  deriving DecidableEq, Repr

/-- The request in progress of a request decoder (R195). -/
structure Request where
  kind    : Byte
  payload : List Byte
  stamp   : Option Position
  deriving DecidableEq, Repr

/-- The four error counts of a master link (R192). -/
structure ErrorCounts where
  characterErrors : Nat
  overruns        : Nat
  frameTimeouts   : Nat
  checkErrors     : Nat
  deriving DecidableEq, Repr

/-- A master link: its channel, reception phase, pause (the expiry moment, absent while RUNNING), frame assembler, request in
progress, held answer, error counts and LINK_ERROR armed flag (table of chapter 9, R195). -/
structure MasterLink where
  port       : Port
  phase      : RxPhase
  pause      : Option Moment
  assembler  : FrameAssembler
  request    : Option Request
  held       : Option (List Byte)
  counts     : ErrorCounts
  errorArmed : Bool
  deriving DecidableEq, Repr

/-! ## Attention unit (chapter 11) -/

/-- The thirteen causes, in the priority order of R208. -/
inductive Cause where
  | haltEntered
  | rejectFault
  | cellFault
  | zeroLost
  | trackSlip
  | trackOverflow
  | valveSuspect
  | alert
  | calDone
  | recipeRetired
  | canListLevel
  | linkError
  | powerUp
  deriving DecidableEq, Repr

/-- A pending cause with its latest detail (R207). -/
structure PendingCause where
  cause  : Cause
  detail : Int
  deriving DecidableEq, Repr

/-- The attention state of one master link: the pending cause set in priority order, the enable set in priority order, and
the attention line: its hold expiry while asserted, absent while released (R207 to R210). -/
structure Attention where
  pending : List PendingCause
  enabled : List Cause
  hold    : Option Moment
  deriving DecidableEq, Repr

/-! ## The whole part -/

/-- The levels of the input pins that the part samples or qualifies: the eye (true while blocked), the confirm input (true
while active), and the line command input (true while high) (R215). -/
structure Pins where
  eye      : Bool
  confirm  : Bool
  lcmdHigh : Bool
  deriving DecidableEq, Repr

/-- The state of the CW-2240. `now`, `choices` and `pending` are the model's own: the moment, in ticks of the reference clock;
the number of free choices made so far (`Config.freeChoice`); and the commands that wait, first in, first out (log
entries 19, 20 and 24). -/
structure State where
  now       : Moment
  choices   : Nat
  resetHeld : Bool
  pins      : Pins
  tracking  : Tracking
  weigh     : WeighUnit
  code      : CodeUnit
  gate      : GateUnit
  canList   : CanList
  dose      : DoseUnit
  store     : Store
  control   : Control
  links     : PerLink MasterLink
  reader    : Port
  attention : PerLink Attention
  pending   : List Instr
  deriving DecidableEq, Repr

/-- The faults that stop the part. The manual gives the part none: every event it describes leaves it running. The type has
no constructor, so that the type itself says that no step of the model stops in a fault. -/
inductive Fault where
  deriving DecidableEq, Repr

/-- The refusals of the model. -/
inductive Refusal where
  /-- Raised by an arm of `exec` whose command has no meaning yet. Safe: the model stops where the part goes on. No arm of
  this model raises it. -/
  | notModelled (mnemonic : String)
  deriving DecidableEq, Repr

/-! ## Reset values -/

/-- The tracking unit after reset (R34). -/
def Tracking.reset : Tracking :=
  { position := 0, residue := 0, queue := [], serial := 0, slip := 0 }

/-- The capture record after reset (R61). -/
def Capture.reset : Capture :=
  { kind := .none, outcome := .none, count := 0, sum := 0, mean := none, testMass := none, newValue := none,
    abortCause := none }

/-- The weigh unit after reset (R62). -/
def WeighUnit.reset : WeighUnit :=
  { platform := .idle, zeroState := .normal, fz := none, span := none, conversion := .stopped, period := 0,
    latest := none, cellRun := 0, cellFault := false, settleCount := 0, zeroRun := 0, capture := Capture.reset }

/-- The code unit after reset (R80). -/
def CodeUnit.reset : CodeUnit :=
  { assembler := .idle, flow := .opened, stray := 0, message := none }

/-- The verdict and gate unit after reset (R97). -/
def GateUnit.reset : GateUnit :=
  { drive := none, confirmLevel := false, qualify := none, windows := [], unconfirmed := 0 }

/-- The can list after reset (R94, R96, R97). -/
def CanList.reset : CanList :=
  { ring := [], unread := 0, level := 64, armed := true }

/-- An UNUSED entry of the valve table: the values after reset (R98). -/
def Valve.reset : Valve :=
  { state := .unused, baseOffset := 0, accumulator := 0, limitRun := 0, ootRun := 0, weighed := 0, rejected := 0,
    netWindow := [], alertArmed := true, lastDose := 0 }

/-- The dose unit after reset (R127). -/
def DoseUnit.reset : DoseUnit :=
  { valves := List.replicate 64 Valve.reset, lineOffset := 0, centering := 0,
    freeze := { line := false, supervisor := false } }

/-- The settings store after reset (R168). -/
def Store.reset : Store :=
  { layout := none, calibration := none, current := none, previous := none, nextGeneration := 0 }

/-- The state controller after reset, its spell timed from the moment given (R180). -/
def Control.reset (since : Moment) : Control :=
  { state := .config, lineStop := false, decoder := .recover, spellStart := since, errors := 0, lastCommand := none }

/-- A channel after reset, at the strap levels given (R194; log entry 16). -/
def Port.reset (straps : StrapPair) : Port :=
  { straps := straps, rx := { fifo := [], lost := false, silence := none, breakLow := false },
    tx := { fifo := [], sending := none } }

/-- The error counts after reset and after a break (R192). -/
def ErrorCounts.zero : ErrorCounts :=
  { characterErrors := 0, overruns := 0, frameTimeouts := 0, checkErrors := 0 }

/-- A master link after reset, at the strap levels given (R194, R195). -/
def MasterLink.reset (straps : StrapPair) : MasterLink :=
  { port := Port.reset straps, phase := .between, pause := none, assembler := .hunt, request := none, held := none,
    counts := ErrorCounts.zero, errorArmed := true }

/-- All thirteen causes, highest first (R208). -/
def Cause.inOrder : List Cause :=
  [.haltEntered, .rejectFault, .cellFault, .zeroLost, .trackSlip, .trackOverflow, .valveSuspect, .alert, .calDone,
    .recipeRetired, .canListLevel, .linkError, .powerUp]

/-- A link's attention state at power-on and at the release of the reset pin: POWER_UP pending alone and every cause enabled,
with the attention line as given (R211). -/
def Attention.powerUp (hold : Option Moment) : Attention :=
  { pending := [{ cause := .powerUp, detail := 0 }], enabled := Cause.inOrder, hold := hold }

/-- The strap levels of State.reset: all low, which selects 19,200 bit/s (R181). (Log entry 1.) -/
def Straps.low : Straps :=
  { filler := { first := false, second := false }, supervisor := { first := false, second := false },
    quality := { first := false, second := false }, reader := { first := false, second := false } }

/-- The part right after reset: power has come on with the reset pin released, at moment 0, with every input pin at its rest
level and the strap pins low (R34, R62, R80, R97, R127, R146, R168, R180, R194, R211). (Log entry 1.) -/
def State.reset : State :=
  { now := 0, choices := 0, resetHeld := false,
    pins := { eye := false, confirm := false, lcmdHigh := true },
    tracking := Tracking.reset, weigh := WeighUnit.reset, code := CodeUnit.reset, gate := GateUnit.reset,
    canList := CanList.reset, dose := DoseUnit.reset, store := Store.reset, control := Control.reset 0,
    links := { filler := MasterLink.reset Straps.low.filler, supervisor := MasterLink.reset Straps.low.supervisor,
               quality := MasterLink.reset Straps.low.quality },
    reader := Port.reset Straps.low.reader,
    attention := { filler := Attention.powerUp (some 10000000), supervisor := Attention.powerUp (some 10000000),
                   quality := Attention.powerUp (some 10000000) },
    pending := [] }

end Sys2Proof.Machine
end

