-- ==== Sys2Proof/Machine/Arith.lean ====
section
/-! DEFINITION. The exact arithmetic of the manual: rounding, clamping, saturating counts, distances and times (R1, R2, R5). -/

namespace Sys2Proof.Machine

/-- A count that saturates at `top` gains one: it stops at its largest value (R1). -/
def satInc (top n : Nat) : Nat := if n < top then n + 1 else top

/-- `x` clamped into [lo, hi] (R2). -/
def clamp (lo hi x : Int) : Int := if x < lo then lo else if hi < x then hi else x

/-- `x` limited to ±m (R2). -/
def limitTo (m x : Int) : Int := clamp (-m) m x

/-- `a ÷ b` rounded, a tie taken away from zero (R2). `b` is above 0. -/
def roundAway (a : Int) (b : Nat) : Int :=
  if 0 ≤ a then (2 * a + b) / (2 * b) else -((2 * -a + b) / (2 * b))

/-- `a ÷ b` rounded half up: a tie is taken towards the larger integer (R41, R99). `b` is above 0. -/
def roundHalfUp (a : Int) (b : Nat) : Int := (2 * a + b) / (2 * b)

/-- `a ÷ b` rounded up (R116). `b` is above 0. -/
def ceilDiv (a : Int) (b : Nat) : Int := -(-a / b)

/-- The difference of two positions, read as a signed number in −8,388,608 … 8,388,607 (R5). -/
def posDiff (a b : Position) : Int := (a - b).toInt

/-- `n` milliseconds in ticks of the 20 MHz reference clock (log entry 24). -/
def ms (n : Nat) : Moment := n * 20000

/-- The speed a pair of strap levels selects, in bit/s (R181). -/
def linkSpeed (p : StrapPair) : Nat :=
  if p.first then (if p.second then 115200 else 57600) else (if p.second then 38400 else 19200)

/-- Whether `ticks` last at least `halfBits` half bit periods at the speed of `p`; a character time is 22 of them (R181). -/
def lastsHalfBits (p : StrapPair) (halfBits : Nat) (ticks : Nat) : Bool :=
  decide (halfBits * 20000000 ≤ 2 * linkSpeed p * ticks)

/-- Whether `ticks` last more than `halfBits` half bit periods at the speed of `p`. -/
def exceedsHalfBits (p : StrapPair) (halfBits : Nat) (ticks : Nat) : Bool :=
  decide (halfBits * 20000000 < 2 * linkSpeed p * ticks)

/-- The first member of a list that satisfies `p` is changed by `f`. -/
def mapFirst {α : Type} (p : α → Bool) (f : α → α) : List α → List α
  | [] => []
  | x :: xs => if p x then f x :: xs else x :: mapFirst p f xs

/-- `f` applied `n` times. -/
def iterate {α : Type} (f : α → α) : Nat → α → α
  | 0, x => x
  | n + 1, x => iterate f n (f x)

end Sys2Proof.Machine
end

