-- ==== Sys2Proof/Machine/Flags.lean ====
section
/-! DEFINITION. The flags of received characters (R182) and the form of a character on a line (R181). -/

namespace Sys2Proof.Machine

/-- The number of ones among the data bits is odd. -/
def oddOnes (data : Byte) : Bool :=
  (List.range 8).foldl (fun acc i => acc != data.getLsbD i) false

/-- The even parity bit of a character: it makes the number of ones among the data bits and itself even (R181). -/
def parityBitOf (data : Byte) : Bool := oddOnes data

/-- The parity flag: the parity bit does not make the count of ones even (R182). -/
def parityFlag (data : Byte) (parityBit : Bool) : Bool := parityBit != parityBitOf data

/-- The break flag: the data bits, the parity bit and the stop bit are all low (R182). -/
def breakFlag (data : Byte) (parityBit stopBit : Bool) : Bool := data == 0 && !parityBit && !stopBit

/-- The framing flag: the stop bit is low and the data bits are not all zero; a break flag is given in its place (R182). -/
def framingFlag (data : Byte) (parityBit stopBit : Bool) : Bool :=
  !stopBit && data != 0 && !breakFlag data parityBit stopBit

/-- The entry of a received character, with the overrun flag and the stamp as given (R182). -/
def entryOf (data : Byte) (parityBit stopBit overrun : Bool) (stamp : Option Position) : Entry :=
  { char := some data, parity := parityFlag data parityBit, framing := framingFlag data parityBit stopBit,
    brk := breakFlag data parityBit stopBit, overrun := overrun, stamp := stamp }

/-- A gap entry (R64, R183). -/
def gapOf (overrun : Bool) (stamp : Option Position) : Entry :=
  { char := none, parity := false, framing := false, brk := false, overrun := overrun, stamp := stamp }

/-- The entry carries a parity, framing or break flag (R192). -/
def Entry.badCharacter (e : Entry) : Bool := e.parity || e.framing || e.brk

/-- The entry is flagged (R65, R182, R185). -/
def Entry.flagged (e : Entry) : Bool := e.badCharacter || e.overrun

/-- The bits of a character on a line, in order: start bit, data bits least significant first, even parity bit, stop bit
(R181). -/
def characterBits (c : Byte) : List Bool :=
  false :: ((List.range 8).map (fun i => c.getLsbD i) ++ [parityBitOf c, true])

end Sys2Proof.Machine
end

