-- ==== Sys2Proof/Machine/Operands.lean ====
section
/-! DEFINITION. How the fields of requests are read and the fields of answers are written (R213), with the codes of the
enumerated values (R214). -/

namespace Sys2Proof.Machine

/-! ## Reading the fields of a request payload -/

/-- The one-byte field at place `i`. -/
def u8At (p : List Byte) (i : Nat) : Nat := (p.getD i 0).toNat

/-- The two-byte field at place `i`, most significant byte first. -/
def u16At (p : List Byte) (i : Nat) : Nat := u8At p i * 256 + u8At p (i + 1)

/-- The three-byte field at place `i`. -/
def u24At (p : List Byte) (i : Nat) : Nat := u16At p i * 256 + u8At p (i + 2)

/-- The two-byte signed field at place `i`, in two's complement. -/
def s16At (p : List Byte) (i : Nat) : Int := (BitVec.ofNat 16 (u16At p i)).toInt

/-- A flag byte: 0 for clear and 1 for set; none for another value, which is out of range. -/
def flagAt (p : List Byte) (i : Nat) : Option Bool :=
  if u8At p i = 0 then some false else if u8At p i = 1 then some true else none

/-! ## Writing the fields of an answer -/

/-- An unsigned field of one byte. -/
def u8 (n : Nat) : List Byte := [BitVec.ofNat 8 n]

/-- An unsigned field of two bytes, most significant first. -/
def u16 (n : Nat) : List Byte := [BitVec.ofNat 8 (n / 256), BitVec.ofNat 8 n]

/-- An unsigned field of three bytes. -/
def u24 (n : Nat) : List Byte := [BitVec.ofNat 8 (n / 65536), BitVec.ofNat 8 (n / 256), BitVec.ofNat 8 n]

/-- An unsigned field of four bytes. -/
def u32 (n : Nat) : List Byte := u16 (n / 65536) ++ u16 n

/-- A signed field of two bytes, in two's complement. -/
def s16 (x : Int) : List Byte := u16 (BitVec.ofInt 16 x).toNat

/-- A signed field of three bytes. -/
def s24 (x : Int) : List Byte := u24 (BitVec.ofInt 24 x).toNat

/-- A signed field of four bytes. -/
def s32 (x : Int) : List Byte := u32 (BitVec.ofInt 32 x).toNat

/-- A flag byte. -/
def flagByte (b : Bool) : List Byte := u8 (if b then 1 else 0)

/-- An optional field preceded by its presence byte. -/
def withPresence (field : Nat → List Byte) (x : Option Nat) : List Byte :=
  match x with
  | some n => flagByte true ++ field n
  | none => flagByte false ++ field 0

/-- A set written as a mask, lowest bit first, in the member order given (R213). For the bytes of a mask of two see log entry 28. -/
def maskOf {α : Type} [DecidableEq α] (order members : List α) : Nat :=
  match order with
  | [] => 0
  | m :: rest => (if m ∈ members then 1 else 0) + 2 * maskOf rest members

/-- The members a mask names, in the member order given. -/
def membersOf {α : Type} (order : List α) (mask : Nat) : List α :=
  match order with
  | [] => []
  | m :: rest => if mask % 2 = 1 then m :: membersOf rest (mask / 2) else membersOf rest (mask / 2)

/-! ## Codes of the enumerated values (R214) -/

/-- The ten statuses (R200). -/
inductive Status where
  | ok
  | state
  | link
  | length
  | range
  | held
  | queueFull
  | recipeBusy
  | busy
  | unknown
  deriving DecidableEq, Repr

/-- Status codes. -/
def Status.code : Status → Nat
  | .ok => 0
  | .state => 1
  | .link => 2
  | .length => 3
  | .range => 4
  | .held => 5
  | .queueFull => 6
  | .recipeBusy => 7
  | .busy => 8
  | .unknown => 9

/-- Operating state codes. -/
def OpState.code : OpState → Nat
  | .config => 0
  | .ready => 1
  | .run => 2
  | .halt => 3

/-- Fill status codes of a record. -/
def FillStatus.code : FillStatus → Nat
  | .normal => 0
  | .short => 1
  | .blockedFill => 2

/-- Origin codes. -/
def Origin.code : Origin → Nat
  | .filled => 0
  | .orphan => 1

/-- Stage codes. -/
def Stage.code : Stage → Nat
  | .filled => 0
  | .onPlatform => 1
  | .weighed => 2
  | .read => 3
  | .missed => 4

/-- Reading status codes; 0 when absent. -/
def readingCode : Option Reading → Nat
  | none => 0
  | some (.valid _ _) => 1
  | some (.noReading .bridged) => 2
  | some (.noReading .tooFew) => 3
  | some (.noReading .zeroLost) => 4
  | some (.noReading .cellFault) => 5
  | some (.noReading .flushedDuringDwell) => 6

/-- The gross weight written for a reading: 0 unless it is VALID (R213). -/
def readingGross : Option Reading → Int
  | some (.valid g _) => g
  | _ => 0

/-- The net weight written for a reading: 0 unless it is VALID (R213). -/
def readingNet : Option Reading → Int
  | some (.valid _ n) => n
  | _ => 0

/-- Code status codes. -/
def CodeStatus.code : CodeStatus → Nat
  | .notYet => 0
  | .matched => 1
  | .mismatch => 2
  | .noRead => 3
  | .garbled => 4
  | .notChecked => 5

/-- The reasons in the verdict order of R85, HALTED first. -/
def Reason.inOrder : List Reason :=
  [.halted, .missed, .orphan, .blockedFill, .fillShort, .noReading, .undecided, .underweight, .overweight, .codeNoRead,
    .codeMismatch, .probation]

/-- The rank of a reason in R85, 1 … 12. -/
def Reason.rank : Reason → Nat
  | .halted => 1
  | .missed => 2
  | .orphan => 3
  | .blockedFill => 4
  | .fillShort => 5
  | .noReading => 6
  | .undecided => 7
  | .underweight => 8
  | .overweight => 9
  | .codeNoRead => 10
  | .codeMismatch => 11
  | .probation => 12

/-- Verdict codes. -/
def Verdict.code : Verdict → Nat
  | .accept => 0
  | .reason r => r.rank
  | .flushed => 13

/-- Valve state codes. -/
def ValveState.code : ValveState → Nat
  | .unused => 0
  | .active => 1
  | .probation _ => 2
  | .suspect => 3
  | .blocked _ => 4

/-- Holder codes of a link. -/
def holderCode : Link → Nat
  | .filler => 1
  | .supervisor => 2
  | .quality => 3

/-- The holder of a valve: absent unless it is BLOCKED (R129). -/
def ValveState.holder? : ValveState → Option Link
  | .blocked h => some h
  | _ => none

/-- The probation left of a valve: 0 in every state but PROBATION (R129). -/
def ValveState.probationLeft : ValveState → Nat
  | .probation n => n
  | _ => 0

/-- The holder field: 0 when absent. -/
def holderField (v : ValveState) : Nat := (v.holder?.map holderCode).getD 0

/-- The freeze source mask: bit 0 LINE, bit 1 SUPERVISOR. -/
def FreezeSet.mask (f : FreezeSet) : Nat := (if f.line then 1 else 0) + (if f.supervisor then 2 else 0)

/-- Platform state codes. -/
def Platform.code : Platform → Nat
  | .idle => 0
  | .empty => 1
  | .dwell _ => 2
  | .waitClear => 3

/-- Zero state codes. -/
def ZeroState.code : ZeroState → Nat
  | .normal => 0
  | .zeroFault => 1

/-- Capture kind codes. -/
def CaptureKind.code : CaptureKind → Nat
  | .none => 0
  | .zero => 1
  | .span => 2

/-- Capture outcome codes. -/
def CaptureOutcome.code : CaptureOutcome → Nat
  | .none => 0
  | .inProgress => 1
  | .calOk => 2
  | .calRange => 3
  | .calAborted => 4

/-- Abort cause codes. -/
def AbortCause.code : AbortCause → Nat
  | .eye => 1
  | .start => 2
  | .restart => 3
  | .calLoad => 4

/-- Cause codes, 1 … 13 in the priority order of R208. -/
def Cause.code : Cause → Nat
  | .haltEntered => 1
  | .rejectFault => 2
  | .cellFault => 3
  | .zeroLost => 4
  | .trackSlip => 5
  | .trackOverflow => 6
  | .valveSuspect => 7
  | .alert => 8
  | .calDone => 9
  | .recipeRetired => 10
  | .canListLevel => 11
  | .linkError => 12
  | .powerUp => 13

/-- The names of the four error counts (R192). -/
inductive CountName where
  | characterErrors
  | overruns
  | frameTimeouts
  | checkErrors
  deriving DecidableEq, Repr

/-- Error count name codes. -/
def CountName.code : CountName → Nat
  | .characterErrors => 1
  | .overruns => 2
  | .frameTimeouts => 3
  | .checkErrors => 4

/-- The detail code of CELL_FAULT: 1 for OVERFLOW and 2 for OUT_OF_BAND. -/
def InvalidMark.code : InvalidMark → Nat
  | .overflow => 1
  | .outOfBand => 2

/-- Last line command outcome codes. -/
def outcomeCode (taken : Bool) : Nat := if taken then 0 else 1

/-- Flow state codes. -/
def FlowState.code : FlowState → Nat
  | .opened => 0
  | .held => 1

/-! ## Which links and which lengths a kind asks for -/

/-- The links on which a kind is permitted (R198). -/
def permitted : Kind → Link → Bool
  | .fillReport, l => l == .filler
  | .doseQuery, _ => true
  | .valveHold, _ => true
  | .valveFree, _ => true
  | .valveAccept, l => l == .supervisor
  | .baseSet, l => l == .supervisor
  | .valveView, l => l != .filler
  | .layoutLoad, l => l == .supervisor
  | .calLoad, l => l == .supervisor
  | .recipeLoad, l => l == .supervisor
  | .recordRead, l => l != .filler
  | .start, l => l == .supervisor
  | .stop, l => l == .supervisor
  | .clear, l => l == .supervisor
  | .flush, l => l == .supervisor
  | .restart, l => l == .supervisor
  | .freeze, l => l == .supervisor
  | .thaw, l => l == .supervisor
  | .thawAll, l => l == .supervisor
  | .zeroCapture, l => l == .supervisor
  | .spanCapture, l => l == .supervisor
  | .captureResult, l => l == .supervisor
  | .canListTake, l => l == .quality
  | .listLevelSet, l => l == .quality
  | .queueView, l => l != .filler
  | .statusRead, _ => true
  | .causeTake, _ => true
  | .causeEnable, _ => true
  | .linkStats, _ => true

/-- The fixed part of a RECIPE LOAD payload; its last byte is the pattern length (section 12.3). -/
def recipeFixedLength : Nat := 33

/-- Whether a payload has the length its kind requires (R199, section 12.2). -/
def lengthOk (k : Kind) (p : List Byte) : Bool :=
  match k with
  | .fillReport => p.length == 4
  | .doseQuery => p.length == 2
  | .valveHold => p.length == 1
  | .valveFree => p.length == 1
  | .valveAccept => p.length == 1
  | .baseSet => p.length == 3
  | .valveView => p.length == 2
  | .layoutLoad => p.length == 17
  | .calLoad => p.length == 14
  | .recipeLoad => decide (recipeFixedLength ≤ p.length) && p.length == recipeFixedLength + u8At p 32
  | .recordRead => p.length == 1
  | .start => p.length == 0
  | .stop => p.length == 0
  | .clear => p.length == 0
  | .flush => p.length == 0
  | .restart => p.length == 0
  | .freeze => p.length == 0
  | .thaw => p.length == 0
  | .thawAll => p.length == 0
  | .zeroCapture => p.length == 0
  | .spanCapture => p.length == 3
  | .captureResult => p.length == 0
  | .canListTake => p.length == 1
  | .listLevelSet => p.length == 2
  | .queueView => p.length == 2
  | .statusRead => p.length == 0
  | .causeTake => p.length == 0
  | .causeEnable => p.length == 2
  | .linkStats => p.length == 1

/-! ## The settings records (section 12.3) -/

/-- The layout record of a payload (section 12.3). -/
def layoutOf (p : List Byte) : Layout :=
  { valveCount := u8At p 0, divider := u8At p 1, platformDistance := u16At p 2, platformWindow := u16At p 4,
    readerDistance := u16At p 6, readerWindow := u16At p 8, rejectDistance := u16At p 10, maxDwell := u16At p 12,
    slipAlarm := u8At p 14, gatePulse := u8At p 15, confirmTime := u8At p 16 }

/-- The bytes of a layout record. -/
def layoutBytes (r : Layout) : List Byte :=
  u8 r.valveCount ++ u8 r.divider ++ u16 r.platformDistance ++ u16 r.platformWindow ++ u16 r.readerDistance ++
    u16 r.readerWindow ++ u16 r.rejectDistance ++ u16 r.maxDwell ++ u8 r.slipAlarm ++ u8 r.gatePulse ++ u8 r.confirmTime

/-- The ranges and cross-checks of a layout record (R149). -/
def layoutValid (r : Layout) : Bool :=
  decide (1 ≤ r.valveCount ∧ r.valveCount ≤ 64) && decide (r.divider ∈ [1, 2, 4, 8]) &&
    decide (1 ≤ r.platformDistance ∧ r.platformDistance ≤ 65535) &&
    decide (1 ≤ r.platformWindow ∧ r.platformWindow ≤ 4095) &&
    decide (1 ≤ r.readerDistance ∧ r.readerDistance ≤ 65535) &&
    decide (1 ≤ r.readerWindow ∧ r.readerWindow ≤ 4095) &&
    decide (1 ≤ r.rejectDistance ∧ r.rejectDistance ≤ 65535) &&
    decide (1 ≤ r.maxDwell ∧ r.maxDwell ≤ 65535) && decide (1 ≤ r.slipAlarm ∧ r.slipAlarm ≤ 16) &&
    decide (5 ≤ r.gatePulse ∧ r.gatePulse ≤ 200) && decide (1 ≤ r.confirmTime ∧ r.confirmTime ≤ 100) &&
    decide ((r.platformDistance : Int) + r.platformWindow ≤ (r.readerDistance : Int) - r.readerWindow) &&
    decide ((r.readerDistance : Int) + r.readerWindow < r.rejectDistance)

/-- The calibration record of a payload. -/
def calibrationOf (p : List Byte) : Calibration :=
  { periodSetting := u8At p 0, span := u24At p 1, zeroFigure := u24At p 4, zeroRate := u8At p 7, zeroBand := u16At p 8,
    settleSkip := u8At p 10, tailDrop := u8At p 11, minCount := u8At p 12, zeroSettle := u8At p 13 }

/-- The bytes of a calibration record. -/
def calibrationBytes (r : Calibration) : List Byte :=
  u8 r.periodSetting ++ u24 r.span ++ u24 r.zeroFigure ++ u8 r.zeroRate ++ u16 r.zeroBand ++ u8 r.settleSkip ++
    u8 r.tailDrop ++ u8 r.minCount ++ u8 r.zeroSettle

/-- The ranges of a calibration record (R151). -/
def calibrationValid (r : Calibration) : Bool :=
  decide (r.periodSetting ∈ [16, 32, 64]) && decide (1 ≤ r.span ∧ r.span ≤ 16777215) &&
    decide (200000 ≤ r.zeroFigure ∧ r.zeroFigure ≤ 600000) && decide (2 ≤ r.zeroRate ∧ r.zeroRate ≤ 8) &&
    decide (1 ≤ r.zeroBand ∧ r.zeroBand ≤ 20000) && decide (r.settleSkip ≤ 15) && decide (r.tailDrop ≤ 3) &&
    decide (1 ≤ r.minCount ∧ r.minCount ≤ 8) && decide (r.zeroSettle ≤ 15)

/-- The recipe record of a payload; the flags of bytes 30 and 31 are read as set when they are 1. -/
def recipeOfPayload (p : List Byte) : Recipe :=
  { targetNet := u24At p 0, tolUnder := u16At p 3, tolOver := u16At p 5, tareNominal := u16At p 7,
    nominalDose := u16At p 9, doseMin := u16At p 11, doseMax := u16At p 13, gain := u8At p 15, shift := u8At p 16,
    trimLimit := u16At p 17, deadBand := u16At p 19, limitAlarm := u8At p 21, ootAlarm := u8At p 22,
    lineLimit := u16At p 23, centerThreshold := u8At p 25, centerEvery := u8At p 26, probationCount := u8At p 27,
    alertBand := u16At p 28, codePattern := if u8At p 32 = 0 then none else some ((p.drop 33).take (u8At p 32)),
    codeRequired := flagAt p 30 == some true }

/-- The keep-trims flag of a recipe payload (R156). -/
def keepTrimsOf (p : List Byte) : Bool := flagAt p 31 == some true

/-- The two flag bytes of a recipe payload are 0 or 1 (R213). -/
def recipeFlagsValid (p : List Byte) : Bool := (flagAt p 30).isSome && (flagAt p 31).isSome

/-- The bytes of a recipe record, with the keep-trims flag as given. -/
def recipeBytes (r : Recipe) (keep : Bool) : List Byte :=
  u24 r.targetNet ++ u16 r.tolUnder ++ u16 r.tolOver ++ u16 r.tareNominal ++ u16 r.nominalDose ++ u16 r.doseMin ++
    u16 r.doseMax ++ u8 r.gain ++ u8 r.shift ++ u16 r.trimLimit ++ u16 r.deadBand ++ u8 r.limitAlarm ++ u8 r.ootAlarm ++
    u16 r.lineLimit ++ u8 r.centerThreshold ++ u8 r.centerEvery ++ u8 r.probationCount ++ u16 r.alertBand ++
    flagByte r.codeRequired ++ flagByte keep ++ u8 (r.codePattern.getD []).length ++ r.codePattern.getD []

/-- A printable character (section 3.1). -/
def printable (c : Byte) : Bool := decide (0x20 ≤ c.toNat ∧ c.toNat ≤ 0x7E)

/-- The ranges and the cross-check of a recipe record (R154, R155). -/
def recipeValid (r : Recipe) : Bool :=
  decide (100 ≤ r.targetNet ∧ r.targetNet ≤ 200000) && decide (r.tolUnder ≤ 20000) && decide (r.tolOver ≤ 20000) &&
    decide (r.tareNominal ≤ 50000) && decide (1 ≤ r.nominalDose ∧ r.nominalDose ≤ 65535) &&
    decide (1 ≤ r.doseMin ∧ r.doseMin ≤ 65535) && decide (1 ≤ r.doseMax ∧ r.doseMax ≤ 65535) &&
    decide (r.gain ≤ 255) && decide (r.shift ≤ 15) && decide (r.trimLimit ≤ 4095) && decide (r.deadBand ≤ 2000) &&
    decide (1 ≤ r.limitAlarm ∧ r.limitAlarm ≤ 64) && decide (1 ≤ r.ootAlarm ∧ r.ootAlarm ≤ 32) &&
    decide (r.lineLimit ≤ 8191) && decide (1 ≤ r.centerThreshold ∧ r.centerThreshold ≤ 255) &&
    decide (8 ≤ r.centerEvery ∧ r.centerEvery ≤ 255) && decide (r.probationCount ≤ 16) &&
    decide (r.alertBand ≤ 20000) &&
    (match r.codePattern with
      | none => true
      | some t => decide (1 ≤ t.length ∧ t.length ≤ 24) && t.all printable) &&
    decide (r.doseMin ≤ r.doseMax)

end Sys2Proof.Machine
end

