-- ==== Sys2Proof/Machine/Ops.lean ====
section
/-! DEFINITION. The operations that the blocks share: the links and their answers, causes and the passage to HALT, the recipe
of a record and its departure, the valve table and the dose served. -/

namespace Sys2Proof.Machine

/-- What a meaning answers. -/
abbrev Result := Host.Outcome State Fault Refusal

/-! ## One value for each link -/

/-- The value of link `l`. -/
def PerLink.get {α : Type} (p : PerLink α) : Link → α
  | .filler => p.filler
  | .supervisor => p.supervisor
  | .quality => p.quality

/-- The value of link `l` replaced. -/
def PerLink.set {α : Type} (p : PerLink α) (l : Link) (x : α) : PerLink α :=
  match l with
  | .filler => { p with filler := x }
  | .supervisor => { p with supervisor := x }
  | .quality => { p with quality := x }

/-- The master link `l`. -/
def State.link (s : State) (l : Link) : MasterLink := s.links.get l

/-- The master link `l` replaced. -/
def State.setLink (s : State) (l : Link) (m : MasterLink) : State := { s with links := s.links.set l m }

/-- The attention state of link `l`. -/
def State.att (s : State) (l : Link) : Attention := s.attention.get l

/-- The attention state of link `l` replaced. -/
def State.setAtt (s : State) (l : Link) (a : Attention) : State := { s with attention := s.attention.set l a }

/-! ## Causes (R207, R209) and the passage to HALT (R172) -/

/-- The detail of a cause placed in a pending set kept in priority order: a cause already pending has its detail replaced
(R207). -/
def putCause (c : Cause) (d : Int) : List PendingCause → List PendingCause
  | [] => [{ cause := c, detail := d }]
  | q :: rest =>
    if q.cause = c then { cause := c, detail := d } :: rest
    else if c.code < q.cause.code then { cause := c, detail := d } :: q :: rest
    else q :: putCause c d rest

/-- The hold of the attention line after a raise (R209). -/
def attentionHold : Moment := ms 500

/-- A cause raised on one link at the moment `now` (R207, R209). -/
def Attention.raised (a : Attention) (now : Moment) (c : Cause) (d : Int) : Attention :=
  { a with pending := putCause c d a.pending, hold := if c ∈ a.enabled then some (now + attentionHold) else a.hold }

/-- A cause raised on link `l` alone. -/
def raiseOn (l : Link) (c : Cause) (d : Int) (s : State) : State := s.setAtt l ((s.att l).raised s.now c d)

/-- A cause routed to all three links, as one raise (R207). -/
def raiseAll (c : Cause) (d : Int) (s : State) : State :=
  { s with attention := { filler := s.attention.filler.raised s.now c d,
                          supervisor := s.attention.supervisor.raised s.now c d,
                          quality := s.attention.quality.raised s.now c d } }

/-- The state controller acts on a HALT reason: in RUN the part enters HALT, asserts the line stop and raises HALT_ENTERED
with the reason as detail (R172). -/
def enterHalt (reason : Cause) (s : State) : State :=
  if s.control.state = .run then
    raiseAll .haltEntered reason.code { s with control := { s.control with state := .halt, lineStop := true } }
  else s

/-- A HALT reason is raised by its block, and the state controller then acts on it (R172). -/
def haltReason (c : Cause) (d : Int) (s : State) : State := enterHalt c (raiseAll c d s)

/-- An enabled cause is pending on the link (R208 to R210). -/
def Attention.anyEnabled (a : Attention) : Bool := a.pending.any (fun q => decide (q.cause ∈ a.enabled))

/-- The line is released where no enabled cause is pending (R208, R210). -/
def Attention.releaseIfNone (a : Attention) : Attention :=
  { a with hold := if a.anyEnabled then a.hold else none }

/-! ## Answers (R189, R190, R195) -/

/-- A status and the payload after it (R200, R201). -/
structure Reply where
  status  : Status
  payload : List Byte
  deriving DecidableEq, Repr

/-- The characters of an answer: lead, kind with 0x80 added, length, status, payload, check (R189, R197). -/
def answerFrame (kind : Byte) (r : Reply) : List Byte :=
  let body := (kind + 0x80) :: BitVec.ofNat 8 r.payload.length :: BitVec.ofNat 8 r.status.code :: r.payload
  0x02 :: (body ++ [checkByte body])

/-- The capacity of a receive or transmit FIFO (chapter 9). -/
def fifoSize : Nat := 128

/-- The transmit FIFO has room for all the characters `a` (R190). -/
def Transmitter.roomFor (t : Transmitter) (a : List Byte) : Bool := decide (t.fifo.length + a.length ≤ fifoSize)

/-- The characters `a` placed whole in the transmit FIFO of a master link. -/
def MasterLink.place (m : MasterLink) (a : List Byte) : MasterLink :=
  { m with port := { m.port with tx := { m.port.tx with fifo := m.port.tx.fifo ++ a } } }

/-- A built answer is placed whole, or held where the transmit FIFO has no room for it (R190); the request is then complete
(R195). -/
def MasterLink.answered (m : MasterLink) (a : List Byte) : MasterLink :=
  if m.port.tx.roomFor a then { m with request := none }.place a
  else { m with request := none, held := some a }

/-- The answer `r` to a request of kind `kind` on link `l`. -/
def answer (l : Link) (kind : Byte) (r : Reply) (s : State) : State :=
  s.setLink l ((s.link l).answered (answerFrame kind r))

/-- Whether the decoder of a link takes the request now: no answer is held, and the decoder holds no other request (R190,
R195). The stamp is compared where one is given. -/
def MasterLink.admits (m : MasterLink) (kind : Byte) (p : List Byte) (stamp : Option Position) : Bool :=
  m.held.isNone &&
    (match m.request with
      | none => true
      | some r => r.kind == kind && r.payload == p && (stamp.isNone || r.stamp == stamp))

/-- What an owning block answers to a request, and the state it leaves. -/
abbrev Served := Reply × State

/-- A request refused with a status: nothing changes (R196, R201). -/
def refuse (st : Status) (s : State) : Served := ({ status := st, payload := [] }, s)

/-- A request of a known kind is taken (R195, R196): the link and length checks come first, then the owning block acts, and
the answer is built from the state it leaves. While the reset pin is held, or while the decoder of the link cannot take this
request, nothing happens (log entries 4 and 5). -/
def serve (k : Kind) (l : Link) (p : List Byte) (stamp : Option Position) (own : State → Served) (s : State) : State :=
  if s.resetHeld || !(s.link l).admits k.code p stamp then s
  else if !permitted k l then answer l k.code { status := .link, payload := [] } s
  else if !lengthOk k p then answer l k.code { status := .length, payload := [] } s
  else answer l k.code (own s).1 (own s).2

/-- An event that is not taken while the reset pin is held active (R180). -/
def unlessReset (f : State → State) (s : State) : State := if s.resetHeld then s else f s

/-! ## Free choices -/

/-- The next free choice; each use counts it (`choose`). -/
def State.choice (s : State) : Nat := Config.freeChoice s.choices

/-- A free choice has been made. -/
def State.chosen (s : State) : State := { s with choices := s.choices + 1 }

/-! ## Settings in place -/

/-- The valve count in place; with no layout record it is taken as 0 (R128). -/
def State.valveCount (s : State) : Nat := (s.store.layout.map Layout.valveCount).getD 0

/-- A valve number lies in 1 … valve count. -/
def State.valveInRange (s : State) (v : Nat) : Bool := decide (1 ≤ v ∧ v ≤ s.valveCount)

/-- The recipe of a generation: the current or the previous recipe, whichever carries it (R166). -/
def Store.recipeOf (st : Store) (g : Generation) : Option Recipe :=
  match st.current with
  | some h =>
    if h.generation = g then some h.recipe
    else st.previous.bind (fun q => if q.generation = g then some q.recipe else none)
  | none => st.previous.bind (fun q => if q.generation = g then some q.recipe else none)

/-- The generation stamped on a new record (R7). A record is made in RUN and HALT alone, where a current recipe is present
(log entry 6). -/
def Store.currentGeneration (st : Store) : Generation := (st.current.map HeldRecipe.generation).getD 0

/-- The tracking unit reports a record made: the count of its generation gains one (R158). -/
def recordMade (s : State) : State :=
  { s with store := { s.store with current := s.store.current.map (fun h => { h with count := h.count + 1 }) } }

/-- The previous recipe is retired, and RECIPE_RETIRED raised on the supervisor link (R162). -/
def retirePrevious (g : Generation) (s : State) : State :=
  raiseOn .supervisor .recipeRetired g.toNat { s with store := { s.store with previous := none } }

/-- The current recipe's count falls by one where the departing record carries its generation (R158). -/
def departCurrent (g : Generation) (s : State) : State :=
  { s with store := { s.store with
      current := s.store.current.map (fun h => if h.generation = g then { h with count := h.count - 1 } else h) } }

/-- The tracking unit reports a departure: the count of the record's generation falls by one, and the previous recipe is
retired when its count falls to 0 (R158, R162). -/
def departed (g : Generation) (s : State) : State :=
  match s.store.previous with
  | some h =>
    if h.generation = g then
      if h.count ≤ 1 then retirePrevious g s
      else { s with store := { s.store with previous := some { h with count := h.count - 1 } } }
    else departCurrent g s
  | none => departCurrent g s

/-! ## Reasons (R81 to R84) -/

/-- A reason joins a set kept in the verdict order, once (section 4.1). -/
def addReason (r : Reason) : List Reason → List Reason
  | [] => [r]
  | q :: rest => if q = r then q :: rest else if r.rank < q.rank then r :: q :: rest else q :: addReason r rest

/-- Several reasons join a record. -/
def CanRecord.withReasons (c : CanRecord) (rs : List Reason) : CanRecord :=
  { c with reasons := rs.foldl (fun acc r => addReason r acc) c.reasons }

/-- The code reasons of a code status, by the code-required flag of the record's own recipe (R83). -/
def codeReasons (st : Store) (g : Generation) (cs : CodeStatus) : List Reason :=
  match cs with
  | .mismatch => [.codeMismatch]
  | .noRead => if ((st.recipeOf g).map Recipe.codeRequired).getD false then [.codeNoRead] else []
  | .garbled => if ((st.recipeOf g).map Recipe.codeRequired).getD false then [.codeNoRead] else []
  | _ => []

/-- A record's code and code status are set, its stage becomes READ and its code reasons join (R19, R74, R76, R83). -/
def CanRecord.readAs (st : Store) (code : Option (List Byte)) (cs : CodeStatus) (c : CanRecord) : CanRecord :=
  { c with code := code, codeStatus := cs, stage := .read }.withReasons (codeReasons st c.generation cs)

/-- The elapsed distance of a record at position `x` (R5). -/
def CanRecord.elapsed (c : CanRecord) (x : Position) : Int := posDiff x c.discharge

/-! ## The valve table and the dose served (chapter 5) -/

/-- The entry of valve `v`, 1 … 64. -/
def State.valve (s : State) (v : Nat) : Valve := s.dose.valves.getD (v - 1) Valve.reset

/-- The entry of valve `v` replaced. -/
def State.setValve (s : State) (v : Nat) (e : Valve) : State :=
  { s with dose := { s.dose with valves := s.dose.valves.set (v - 1) e } }

/-- The trim of an accumulator under a shift, rounded half up (R99). -/
def trimOf (a : Int) (shift : Nat) : Int := roundHalfUp a (2 ^ shift)

/-- A_lim of a recipe (R98). -/
def accLimit (r : Recipe) : Int := (r.trimLimit : Int) * 2 ^ r.shift

/-- The current recipe. -/
def State.recipe (s : State) : Option Recipe := s.store.current.map HeldRecipe.recipe

/-- The sum of nominal dose, base offset, line offset and trim, formed exactly (R101). -/
def doseSum (r : Recipe) (lineOffset : Int) (e : Valve) : Int :=
  r.nominalDose + e.baseOffset + lineOffset + trimOf e.accumulator r.shift

/-- The dose of a valve entry: 0 when BLOCKED or UNUSED, else the sum clamped into the recipe's dose limits (R101). With no
recipe held no dose is served. -/
def State.doseOf (s : State) (e : Valve) : Nat :=
  match e.state with
  | .unused => 0
  | .blocked _ => 0
  | _ =>
    match s.recipe with
    | none => 0
    | some r => (clamp r.doseMin r.doseMax (doseSum r s.dose.lineOffset e)).toNat

/-- The dose given to the filler for a valve is recorded (R103). -/
def serveDose (l : Link) (v : Nat) (s : State) : State :=
  if l = .filler then s.setValve v { s.valve v with lastDose := s.doseOf (s.valve v) } else s

end Sys2Proof.Machine
end

