-- ==== Sys2Proof/Machine/CanList.lean ====
section
/-! DEFINITION. The can list: appends, takes and the list level (section 4.6). -/

namespace Sys2Proof.Machine

/-- The ring holds up to 256 summaries (R94). -/
def ringSize : Nat := 256

/-- A summary joins the ring as the newest; a full ring loses its oldest, read or not (R94). -/
def CanList.append (c : CanList) (m : CanSummary) : CanList :=
  if c.ring.length < ringSize then { c with ring := c.ring ++ [m], unread := c.unread + 1 }
  else if c.unread < ringSize then { c with ring := c.ring.tail ++ [m], unread := c.unread + 1 }
  else { c with ring := c.ring.tail ++ [m] }

/-- An append takes the unread count to the level or above while the flag is armed (R96). -/
def CanList.reaches (before after : CanList) : Bool :=
  decide (before.unread < after.unread) && after.armed && decide (after.level ≤ after.unread)

/-- A summary is appended to the can list; CAN_LIST_LEVEL is raised, and the flag disarmed, where the count reaches the level
(R94, R96). -/
def appendSummary (m : CanSummary) (s : State) : State :=
  let c := s.canList.append m
  if s.canList.reaches c then
    raiseOn .quality .canListLevel c.unread { s with canList := { c with armed := false } }
  else { s with canList := c }

/-- The summary of a record that leaves the queue with a verdict (R91). -/
def summaryOf (c : CanRecord) (v : Verdict) (awaiting : Bool) : CanSummary :=
  { serial := c.serial, origin := c.origin, generation := c.generation, valve := c.valve, doseUsed := c.doseUsed,
    reading := c.reading, code := c.code, codeStatus := c.codeStatus, reasons := c.reasons, verdict := v,
    unconfirmed := false, awaiting := awaiting }

/-- The bytes of a can summary (section 12.4). R213 gives no byte order for a mask: that the reasons go most significant byte first
is the model's choice (log entry 28). -/
def summaryBytes (m : CanSummary) : List Byte :=
  u16 m.serial.toNat ++ u8 m.origin.code ++ u8 m.generation.toNat ++ u8 (m.valve.getD 0) ++ u16 (m.doseUsed.getD 0) ++
    s24 (readingGross m.reading) ++ s24 (readingNet m.reading) ++ u8 (readingCode m.reading) ++
    u8 (m.code.getD []).length ++ m.code.getD [] ++ u8 m.codeStatus.code ++ u16 (maskOf Reason.inOrder m.reasons) ++
    u8 m.verdict.code ++ flagByte m.unconfirmed

/-- An answer's payload after the status holds at most 120 characters (R202). -/
def payloadRoom : Nat := 120

/-- The summaries a take collects, in ring order: at most `n`, none from the first pending one on, and none from the first
that the room left in the answer does not hold (R95, R202). -/
def collectSummaries : Nat → Nat → List CanSummary → List CanSummary
  | 0, _, _ => []
  | _ + 1, _, [] => []
  | n + 1, room, m :: rest =>
    if m.awaiting then []
    else if (summaryBytes m).length ≤ room then m :: collectSummaries n (room - (summaryBytes m).length) rest
    else []

/-- The unread summaries, oldest first (R94). -/
def CanList.unreadSummaries (c : CanList) : List CanSummary := c.ring.drop (c.ring.length - c.unread)

/-- `k` summaries are marked read; the flag is armed where the count falls below the level (R95, R96). -/
def CanList.taken (c : CanList) (k : Nat) : CanList :=
  { c with unread := c.unread - k,
           armed := if c.level ≤ c.unread ∧ c.unread - k < c.level then true else c.armed }

/-- CAN LIST TAKE, by the can list (R95). -/
def ownCanListTake (p : List Byte) (s : State) : Served :=
  if u8At p 0 < 1 ∨ 8 < u8At p 0 then refuse .range s
  else
    let got := collectSummaries (u8At p 0) (payloadRoom - 3) s.canList.unreadSummaries
    let c := s.canList.taken got.length
    ({ status := .ok, payload := u8 got.length ++ u16 c.unread ++ got.flatMap summaryBytes }, { s with canList := c })

/-- LIST LEVEL SET, by the can list (R96). -/
def ownListLevelSet (p : List Byte) (s : State) : Served :=
  if u16At p 0 < 1 ∨ ringSize < u16At p 0 then refuse .range s
  else
    let reply : Reply := { status := .ok, payload := u16 (u16At p 0) }
    if u16At p 0 ≤ s.canList.unread then
      (reply, raiseOn .quality .canListLevel s.canList.unread
        { s with canList := { s.canList with level := u16At p 0, armed := false } })
    else (reply, { s with canList := { s.canList with level := u16At p 0, armed := true } })

/-- CAN LIST TAKE (R95). -/
def execCanListTake (l : Link) (p : List Byte) (s : State) : Result :=
  .next (serve .canListTake l p none (ownCanListTake p) s)

/-- LIST LEVEL SET (R96). -/
def execListLevelSet (l : Link) (p : List Byte) (s : State) : Result :=
  .next (serve .listLevelSet l p none (ownListLevelSet p) s)

end Sys2Proof.Machine
end

