-- ==== Sys2Proof/Machine/Gate.lean ====
section
/-! DEFINITION. Verdicts, the reject drive, the confirm line and the hand-over at the gate (chapter 4). -/

namespace Sys2Proof.Machine

/-! ## The verdict (R84, R85) -/

/-- The reasons the gate adds of its own (R84). -/
def gateReasons (op : OpState) (stage : Stage) : List Reason :=
  (if stage = .onPlatform ∨ stage = .weighed then [.undecided] else []) ++
    (if op = .halt ∧ stage ≠ .missed then [.halted] else [])

/-- The verdict of a set of reasons: the reason present that stands highest in R85, or ACCEPT. -/
def verdictOf (reasons : List Reason) : Verdict :=
  match Reason.inOrder.find? (fun r => decide (r ∈ reasons)) with
  | some r => .reason r
  | none => .accept

/-- A verdict drives the gate: every reason but MISSED does (R85). -/
def Verdict.drives : Verdict → Bool
  | .reason r => r != .missed
  | .accept => false
  | .flushed => false

/-! ## The reject drive (R87) -/

/-- A drive turns the output on, or moves the end of a running pulse, to this moment plus the gate pulse (R87). -/
def startDrive (L : Layout) (s : State) : State :=
  { s with gate := { s.gate with drive := some (s.now + ms L.gatePulse) } }

/-- The end of the reject pulse is reached (R87). -/
def pulseEndDue (s : State) : Bool :=
  match s.gate.drive with
  | some e => decide (e ≤ s.now)
  | none => false

/-! ## Confirm windows (R89, R90) -/

/-- At most 32 windows are open (R89). -/
def maxWindows : Nat := 32

/-- The pending summary of a can, its window closed, with the unconfirmed flag as given. -/
def closeSummary (serial : Serial) (unconfirmed : Bool) (m : CanSummary) : CanSummary :=
  if m.serial = serial ∧ m.awaiting then { m with awaiting := false, unconfirmed := unconfirmed } else m

/-- The pending summaries of a can are no longer pending. -/
def closePending (serial : Serial) (unconfirmed : Bool) (s : State) : State :=
  { s with canList := { s.canList with ring := s.canList.ring.map (closeSummary serial unconfirmed) } }

/-- A window closes as unconfirmed: its can's summary is flagged, the run gains one, and REJECT_FAULT is raised when the run
goes from 2 to 3 (R89, R90). The window has left the list. -/
def unconfirmedClose (serial : Serial) (s : State) : State :=
  let t := closePending serial true { s with gate := { s.gate with unconfirmed := satInc 255 s.gate.unconfirmed } }
  if s.gate.unconfirmed = 2 then haltReason .rejectFault serial.toNat t else t

/-- The oldest of 32 open windows closes as if it had expired (R89). -/
def makeWindowRoom (s : State) : State :=
  match s.gate.windows with
  | [] => s
  | w :: rest =>
    if maxWindows ≤ s.gate.windows.length then unconfirmedClose w.serial { s with gate := { s.gate with windows := rest } }
    else s

/-- A drive opens a confirm window for its can; opened while the level is ACTIVE it is satisfied at once (R89). -/
def openWindow (L : Layout) (serial : Serial) (s : State) : State :=
  let t := makeWindowRoom s
  if t.gate.confirmLevel then { t with gate := { t.gate with unconfirmed := 0 } }
  else { t with gate := { t.gate with
      windows := t.gate.windows ++ [{ serial := serial, expiry := t.now + ms L.confirmTime }] } }

/-- Every open window is satisfied and closes (R89). -/
def satisfyWindows (s : State) : State :=
  { s with
    gate := { s.gate with windows := [], unconfirmed := if s.gate.windows.isEmpty then s.gate.unconfirmed else 0 }
    canList := { s.canList with ring := s.canList.ring.map (fun m =>
      if s.gate.windows.any (fun w => w.serial == m.serial) then closeSummary m.serial false m else m) } }

/-- A window has reached its expiry. -/
def Window.due (now : Moment) (w : Window) : Bool := decide (w.expiry ≤ now)

/-- Some open window has reached its expiry. -/
def windowDue (s : State) : Bool := s.gate.windows.any (Window.due s.now)

/-- The oldest window that has reached its expiry closes as unconfirmed (R89; log entry 9). -/
def expireWindow (s : State) : State :=
  match s.gate.windows.find? (Window.due s.now) with
  | none => s
  | some w => unconfirmedClose w.serial { s with gate := { s.gate with windows := s.gate.windows.erase w } }

/-! ## The confirm input (R88) -/

/-- The confirm input has been steadily active for 1 ms (R88). -/
def qualifyDue (s : State) : Bool :=
  s.pins.confirm &&
    (match s.gate.qualify with
      | some t => decide (t + ms 1 ≤ s.now)
      | none => false)

/-! ## The hand-over (R86, R92) -/

/-- The counts of the record's valve at a hand-over from the gate; an orphan and an UNUSED valve change none (R92). -/
def countHandOver (c : CanRecord) (drove : Bool) (s : State) : State :=
  match c.valve with
  | none => s
  | some v =>
    if (s.valve v).state = .unused then s
    else
      let e := s.valve v
      s.setValve v { e with
        weighed := (match c.reading with
          | some (.valid _ _) => satInc 4294967295 e.weighed
          | _ => e.weighed)
        rejected := if drove then satInc 4294967295 e.rejected else e.rejected }

/-- The reject drive starts and the can's confirm window opens, where the verdict drives the gate (R86, step 3). -/
def driveFor (L : Layout) (serial : Serial) (drives : Bool) (s : State) : State :=
  if drives then openWindow L serial (startDrive L s) else s

/-- The verdict and gate unit deals with the record that has reached the gate and left the head of the queue (R86). -/
def handOver (L : Layout) (c : CanRecord) (s : State) : State :=
  let d := c.withReasons (gateReasons s.control.state c.stage)
  let v := verdictOf d.reasons
  let t := driveFor L c.serial v.drives s
  departed c.generation (countHandOver d v.drives
    (appendSummary (summaryOf d v (v.drives && !t.gate.confirmLevel)) t))

/-- The gate pass: head records at or beyond the reject distance are handed over, one after the other (R17, R20). The number
bounds the records looked at. -/
def gatePass (L : Layout) : Nat → State → State
  | 0, s => s
  | n + 1, s =>
    match s.tracking.queue with
    | [] => s
    | c :: rest =>
      if (L.rejectDistance : Int) ≤ c.elapsed s.tracking.position then
        gatePass L n (handOver L c { s with tracking := { s.tracking with queue := rest } })
      else s

/-! ## The commands of the gate -/

/-- The reject output turns off at the end of its pulse (R87). -/
def rejectPulseEnd (s : State) : State :=
  if pulseEndDue s then { s with gate := { s.gate with drive := none } } else s

/-- The confirm input goes active: its 1 ms of qualification begins (R88). While the reset pin is held it is not qualified. -/
def confirmActive (s : State) : State :=
  if s.pins.confirm then s
  else { s with pins := { s.pins with confirm := true },
                gate := if s.resetHeld then s.gate else { s.gate with qualify := some s.now } }

/-- The confirm level becomes ACTIVE and satisfies every open window (R88, R89). -/
def confirmQualified (s : State) : State :=
  if qualifyDue s then satisfyWindows { s with gate := { s.gate with confirmLevel := true, qualify := none } } else s

/-- The confirm input goes inactive: the level is INACTIVE at once (R88). R88 gives no order between this edge and the end of the
1 ms at the same tick: that an edge taken first ends the qualification, so that the level never becomes ACTIVE, is the model's
choice (log entry 26). -/
def confirmInactive (s : State) : State :=
  { s with pins := { s.pins with confirm := false }, gate := { s.gate with confirmLevel := false, qualify := none } }

/-- CONFIRM_INPUT_ACTIVE (R88). -/
def execConfirmInputActive (s : State) : Result := .next (confirmActive s)

/-- CONFIRM_QUALIFIED (R88, R89). -/
def execConfirmQualified (s : State) : Result := .next (unlessReset confirmQualified s)

/-- CONFIRM_INPUT_INACTIVE (R88). -/
def execConfirmInputInactive (s : State) : Result := .next (confirmInactive s)

/-- CONFIRM_WINDOW_EXPIRY (R89, R90). -/
def execConfirmWindowExpiry (s : State) : Result := .next (unlessReset expireWindow s)

/-- REJECT_PULSE_END (R87). -/
def execRejectPulseEnd (s : State) : Result := .next (unlessReset rejectPulseEnd s)

end Sys2Proof.Machine
end

