-- ==== Sys2Proof/Machine/Dose.lean ====
section
/-! DEFINITION. The dose unit's control: the control update, the centering step, dose queries, base offsets and the freeze
sources (chapter 5). -/

namespace Sys2Proof.Machine

/-! ## The steps of a control update on the valve entry (R107 to R113) -/

/-- The error e = target net − net, limited to ±32,767 (R107). -/
def errorOf (r : Recipe) (net : Int) : Int := limitTo 32767 (r.targetNet - net)

/-- The error is integrated into the accumulator, which is held within ±A_lim, and the limit run is counted (R107, R108). -/
def integrate (r : Recipe) (net : Int) (e : Valve) : Valve :=
  if (errorOf r net).natAbs ≤ r.deadBand then { e with limitRun := 0 }
  else
    let candidate := e.accumulator + errorOf r net * r.gain
    if candidate < -accLimit r then { e with accumulator := -accLimit r, limitRun := satInc 255 e.limitRun }
    else if accLimit r < candidate then { e with accumulator := accLimit r, limitRun := satInc 255 e.limitRun }
    else { e with accumulator := candidate, limitRun := 0 }

/-- A net lies in the tolerance band of a recipe; a net equal to either bound is within (R82, R109). -/
def inBand (r : Recipe) (net : Int) : Bool :=
  decide ((r.targetNet : Int) - r.tolUnder ≤ net ∧ net ≤ (r.targetNet : Int) + r.tolOver)

/-- The out-of-tolerance run is counted (R109). -/
def judgeTolerance (r : Recipe) (net : Int) (e : Valve) : Valve :=
  { e with ootRun := if inBand r net then 0 else satInc 255 e.ootRun }

/-- An ACTIVE valve one of whose runs has reached its alarm (R110). -/
def reachesAlarm (r : Recipe) (e : Valve) : Bool :=
  e.state == .active && (decide (r.limitAlarm ≤ e.limitRun) || decide (r.ootAlarm ≤ e.ootRun))

/-- Such a valve becomes SUSPECT (R110). -/
def suspectStep (r : Recipe) (e : Valve) : Valve :=
  if reachesAlarm r e then { e with state := .suspect } else e

/-- PROBATION with a number of cans left, or ACTIVE when none is left (R111, R136). -/
def probationOrActive (left : Nat) : ValveState := if left = 0 then .active else .probation left

/-- A valve in PROBATION counts its probation left (R111). -/
def probationStep (r : Recipe) (net : Int) (e : Valve) : Valve :=
  match e.state with
  | .probation left =>
    { e with state := if inBand r net then probationOrActive (left - 1) else probationOrActive r.probationCount }
  | _ => e

/-- The net enters the window of the latest 8 nets (R112). -/
def enterNet (net : Int) (e : Valve) : Valve :=
  { e with netWindow := (if e.netWindow.length < 8 then e.netWindow else e.netWindow.tail) ++ [net] }

/-- The mean of the net window, rounded (R112). -/
def windowMean (e : Valve) : Int := roundAway e.netWindow.sum e.netWindow.length

/-- The window mean lies below target net − alert band; with an alert band of 0 no comparison is made (R113). -/
def belowAlert (r : Recipe) (e : Valve) : Bool :=
  r.alertBand != 0 && decide (windowMean e < (r.targetNet : Int) - r.alertBand)

/-- The early alert's flag after its step (R113). -/
def alertStep (r : Recipe) (e : Valve) : Valve :=
  if r.alertBand = 0 then e else { e with alertArmed := !belowAlert r e }

/-- The entry after the first three steps of an update (R107 to R109). -/
def updatedRuns (r : Recipe) (net : Int) (e : Valve) : Valve := judgeTolerance r net (integrate r net e)

/-- The entry after the first six steps of an update (R107 to R112). -/
def updatedWindow (r : Recipe) (net : Int) (e : Valve) : Valve :=
  enterNet net (probationStep r net (suspectStep r (updatedRuns r net e)))

/-- The entry after a whole update (R107 to R113). -/
def updatedValve (r : Recipe) (net : Int) (e : Valve) : Valve := alertStep r (updatedWindow r net e)

/-! ## The centering step (R115 to R118) -/

/-- The entries in use: the first `valve count` of the table (section 5.1). -/
def State.inUse (s : State) : List Valve := s.dose.valves.take s.valveCount

/-- The trims of the ACTIVE valves (R115). -/
def activeTrims (r : Recipe) (vs : List Valve) : List Int :=
  (vs.filter (fun e => e.state == .active)).map (fun e => trimOf e.accumulator r.shift)

/-- The largest lo(v) of the valves in use (R116). -/
def moveLow (r : Recipe) (vs : List Valve) : Int :=
  ((vs.map (fun e => ceilDiv (e.accumulator - accLimit r) (2 ^ r.shift))).max?).getD 0

/-- The smallest hi(v) of the valves in use (R116). -/
def moveHigh (r : Recipe) (vs : List Valve) : Int :=
  ((vs.map (fun e => (e.accumulator + accLimit r) / 2 ^ r.shift)).min?).getD 0

/-- The move of a centering step, 0 where the step ends with no change (R115 to R117). -/
def centeringMove (r : Recipe) (lineOffset : Int) (vs : List Valve) : Int :=
  let trims := activeTrims r vs
  if trims.isEmpty then 0
  else
    let mean := roundAway trims.sum trims.length
    if mean.natAbs < r.centerThreshold then 0
    else clamp (-(r.lineLimit : Int) - lineOffset) (r.lineLimit - lineOffset)
      (clamp (moveLow r vs) (moveHigh r vs) mean)

/-- The first `n` entries of the table changed by `f`. -/
def mapUsed (n : Nat) (f : Valve → Valve) (vs : List Valve) : List Valve := (vs.take n).map f ++ vs.drop n

/-- A move is applied: the line offset gains it and every accumulator in use loses it × 2^shift (R118). -/
def applyMove (r : Recipe) (c : Int) (s : State) : State :=
  { s with dose := { s.dose with
      lineOffset := s.dose.lineOffset + c
      valves := mapUsed s.valveCount (fun e => { e with accumulator := e.accumulator - c * 2 ^ r.shift }) s.dose.valves } }

/-- The centering step (R115 to R118). -/
def centeringStep (r : Recipe) (s : State) : State := applyMove r (centeringMove r s.dose.lineOffset s.inUse) s

/-- The centering counter gains one; at center every it becomes 0 and a centering step is taken (R114). -/
def centeringCount (r : Recipe) (s : State) : State :=
  if r.centerEvery ≤ s.dose.centering + 1 then centeringStep r { s with dose := { s.dose with centering := 0 } }
  else { s with dose := { s.dose with centering := s.dose.centering + 1 } }

/-- A control update for valve `v` with a net, under the current recipe (R106 to R118). -/
def controlUpdate (r : Recipe) (v : Nat) (net : Int) (s : State) : State :=
  let before := s.valve v
  let s1 := s.setValve v (updatedValve r net before)
  let s2 := if reachesAlarm r (updatedRuns r net before) then raiseAll .valveSuspect v s1 else s1
  let s3 := if belowAlert r (updatedWindow r net before) && before.alertArmed then raiseAll .alert v s2 else s2
  centeringCount r s3

/-- The freeze source set is not empty: the part is frozen (R120). -/
def State.frozen (s : State) : Bool := s.dose.freeze.line || s.dose.freeze.supervisor

/-- A valve steered by its weights: ACTIVE or PROBATION (R106). -/
def ValveState.steered : ValveState → Bool
  | .active => true
  | .probation _ => true
  | .unused => false
  | .suspect => false
  | .blocked _ => false

/-- A VALID reading of a record of origin FILLED is handed to the dose unit, which makes a control update or sets it aside
(R106). -/
def controlReading (v : Nat) (g : Generation) (fs : FillStatus) (net : Int) (s : State) : State :=
  match s.store.current with
  | none => s
  | some h =>
    if h.generation = g ∧ fs = .normal ∧ (s.valve v).state.steered ∧ ¬ s.frozen then controlUpdate h.recipe v net s
    else s

/-! ## DOSE QUERY and BASE SET -/

/-- The dose and the state of a valve, as a DOSE QUERY answer carries them (section 12.2). -/
def doseAndState (s : State) (v : Nat) : List Byte := u16 (s.doseOf (s.valve v)) ++ u8 (s.valve v).state.code

/-- The doses of `n` valves from `v` on are recorded as served, where the filler asked (R103). -/
def serveDoses (l : Link) (v : Nat) : Nat → State → State
  | 0, s => s
  | n + 1, s => serveDose l (v + n) (serveDoses l v n s)

/-- DOSE QUERY, by the dose unit (R104). -/
def ownDoseQuery (l : Link) (p : List Byte) (s : State) : Served :=
  let v := u8At p 0
  let n := u8At p 1
  if s.control.state = .config then refuse .state s
  else if n < 1 ∨ 16 < n ∨ v < 1 ∨ s.valveCount < v + n - 1 then refuse .range s
  else
    ({ status := .ok, payload := u8 v ++ u8 n ++ (List.range n).flatMap (fun i => doseAndState s (v + i)) },
      serveDoses l v n s)

/-- BASE SET, by the dose unit (R119). -/
def ownBaseSet (p : List Byte) (s : State) : Served :=
  let v := u8At p 0
  if s.control.state = .config then refuse .state s
  else if !s.valveInRange v then refuse .range s
  else
    let t := s.setValve v { s.valve v with baseOffset := limitTo 8191 (s16At p 1) }
    ({ status := .ok, payload := u8 v ++ s16 (t.valve v).baseOffset ++ doseAndState t v }, t)

/-! ## Freeze sources (R120 to R122) -/

/-- The freeze source set replaced. -/
def setFreeze (f : FreezeSet) (s : State) : State := { s with dose := { s.dose with freeze := f } }

/-- The answer to FREEZE, THAW and THAW ALL: the set and the line offset (R121). -/
def freezeServed (s : State) : Served :=
  ({ status := .ok, payload := u8 s.dose.freeze.mask ++ s16 s.dose.lineOffset }, s)

/-- DOSE QUERY (R104). -/
def execDoseQuery (l : Link) (p : List Byte) (s : State) : Result :=
  .next (serve .doseQuery l p none (ownDoseQuery l p) s)

/-- BASE SET (R119). -/
def execBaseSet (l : Link) (p : List Byte) (s : State) : Result :=
  .next (serve .baseSet l p none (ownBaseSet p) s)

/-- FREEZE: SUPERVISOR joins the set (R121). -/
def execFreeze (l : Link) (p : List Byte) (s : State) : Result :=
  .next (serve .freeze l p none (fun t => freezeServed (setFreeze { t.dose.freeze with supervisor := true } t)) s)

/-- THAW: SUPERVISOR leaves the set (R121). -/
def execThaw (l : Link) (p : List Byte) (s : State) : Result :=
  .next (serve .thaw l p none (fun t => freezeServed (setFreeze { t.dose.freeze with supervisor := false } t)) s)

/-- THAW ALL: the set is emptied (R121). -/
def execThawAll (l : Link) (p : List Byte) (s : State) : Result :=
  .next (serve .thawAll l p none (fun t => freezeServed (setFreeze { line := false, supervisor := false } t)) s)

end Sys2Proof.Machine
end

