-- ==== Sys2Proof/Machine/Valves.lean ====
section
/-! DEFINITION. Valve states, holds and the valve view (chapter 6). -/

namespace Sys2Proof.Machine

/-- The state of valve `v` replaced. -/
def setValveState (v : Nat) (st : ValveState) (s : State) : State := s.setValve v { s.valve v with state := st }

/-- The answer of the hold requests: the valve, its state and its holder (R133, R134, R136, R138). -/
def holdReply (st : Status) (v : Nat) (s : State) : Served :=
  ({ status := st, payload := u8 v ++ u8 (s.valve v).state.code ++ u8 (holderField (s.valve v).state) }, s)

/-- The probation count of the current recipe (R129). -/
def State.probationCount (s : State) : Nat := (s.recipe.map Recipe.probationCount).getD 0

/-- A valve is released into PROBATION, or into ACTIVE where the probation count is 0, its two runs cleared (R136). -/
def releaseValve (v : Nat) (s : State) : State :=
  s.setValve v { s.valve v with state := probationOrActive s.probationCount, limitRun := 0, ootRun := 0 }

/-- The checks that the hold requests share: STATE in CONFIG, and RANGE outside the valves in use (R133, R136, R138). -/
def withValve (p : List Byte) (act : Nat → State → Served) (s : State) : Served :=
  if s.control.state = .config then refuse .state s
  else if !s.valveInRange (u8At p 0) then refuse .range s
  else act (u8At p 0) s

/-- VALVE HOLD on a valve in use (R133, R134). -/
def holdValve (l : Link) (v : Nat) (s : State) : Served :=
  match (s.valve v).state with
  | .blocked h =>
    if h = l then holdReply .ok v s
    else if l = .supervisor then holdReply .ok v (setValveState v (.blocked .supervisor) s)
    else holdReply .held v s
  | _ => holdReply .ok v (setValveState v (.blocked l) s)

/-- VALVE FREE on a valve in use (R136). -/
def freeValve (l : Link) (v : Nat) (s : State) : Served :=
  match (s.valve v).state with
  | .blocked h => if h = l ∨ l = .supervisor then holdReply .ok v (releaseValve v s) else holdReply .held v s
  | .suspect => if l = .supervisor then holdReply .ok v (releaseValve v s) else holdReply .held v s
  | _ => holdReply .ok v s

/-- VALVE ACCEPT on a valve in use (R138). -/
def acceptValve (v : Nat) (s : State) : Served :=
  match (s.valve v).state with
  | .suspect => holdReply .ok v (s.setValve v { s.valve v with state := .active, limitRun := 0, ootRun := 0 })
  | .blocked _ => holdReply .held v s
  | _ => holdReply .ok v s

/-- A fault report blocks the valve it names with holder FILLER, unless it is BLOCKED already (R12, R137). -/
def faultBlock (v : Nat) (s : State) : State :=
  match (s.valve v).state with
  | .blocked _ => s
  | _ => setValveState v (.blocked .filler) s

/-- The trim reported for an entry, 0 when no recipe is held (R142). -/
def reportedTrim (s : State) (e : Valve) : Int := (s.recipe.map (fun r => trimOf e.accumulator r.shift)).getD 0

/-- The dose a view reports: 0 in CONFIG (R142). -/
def reportedDose (s : State) (e : Valve) : Nat := if s.control.state = .config then 0 else s.doseOf e

/-- The bytes of a valve view (section 12.5). -/
def valveViewBytes (v : Nat) (s : State) : List Byte :=
  let e := s.valve v
  u8 v ++ u8 e.state.code ++ u8 (holderField e.state) ++ s16 e.baseOffset ++ s32 e.accumulator ++ s16 (reportedTrim s e) ++
    u8 e.limitRun ++ u8 e.ootRun ++ u8 e.state.probationLeft ++ u32 e.weighed ++ u32 e.rejected ++
    u8 e.netWindow.length ++ e.netWindow.flatMap s24 ++ flagByte e.alertArmed ++ u16 e.lastDose ++ u16 (reportedDose s e)

/-- VALVE VIEW, by the dose unit: RANGE for the valve and the flag, then LINK for a set flag on the quality link; the counts
are cleared after the answer is built (R142, R143). -/
def ownValveView (l : Link) (p : List Byte) (s : State) : Served :=
  let v := u8At p 0
  if !s.valveInRange v then refuse .range s
  else
    match flagAt p 1 with
    | none => refuse .range s
    | some false => ({ status := .ok, payload := valveViewBytes v s }, s)
    | some true =>
      if l = .quality then refuse .link s
      else ({ status := .ok, payload := valveViewBytes v s }, s.setValve v { s.valve v with weighed := 0, rejected := 0 })

/-- VALVE HOLD (R133, R134). -/
def execValveHold (l : Link) (p : List Byte) (s : State) : Result :=
  .next (serve .valveHold l p none (withValve p (holdValve l)) s)

/-- VALVE FREE (R136). -/
def execValveFree (l : Link) (p : List Byte) (s : State) : Result :=
  .next (serve .valveFree l p none (withValve p (freeValve l)) s)

/-- VALVE ACCEPT (R138). -/
def execValveAccept (l : Link) (p : List Byte) (s : State) : Result :=
  .next (serve .valveAccept l p none (withValve p acceptValve) s)

/-- VALVE VIEW with its clear flag clear, or with a payload that is refused (R142). -/
def execValveView (l : Link) (p : List Byte) (s : State) : Result :=
  .next (serve .valveView l p none (ownValveView l p) s)

/-- VALVE VIEW with its clear flag set (R142, R143). -/
def execValveViewClear (l : Link) (v : Byte) (s : State) : Result :=
  .next (serve .valveView l [v, 1] none (ownValveView l [v, 1]) s)

end Sys2Proof.Machine
end

