-- ==== Sys2Proof/Machine/Weighing.lean ====
section
/-! DEFINITION. The weigh unit: conversions, weighings, zero tracking and captures (chapter 2). -/

namespace Sys2Proof.Machine

/-! ## Settings and arithmetic -/

/-- The calibration record in place. Outside IDLE one is always present; the value given without one is used in no state that
a run reaches (log entry 6). -/
def State.cal (s : State) : Calibration :=
  s.store.calibration.getD
    { periodSetting := 0, span := 0, zeroFigure := 0, zeroRate := 0, zeroBand := 0, settleSkip := 0, tailDrop := 0,
      minCount := 0, zeroSettle := 0 }

/-- The weigh unit replaced. -/
def State.setWeigh (s : State) (w : WeighUnit) : State := { s with weigh := w }

/-- The cell frequency in dHz of a conversion of `n` periods in `ticks` ticks, rounded half up (R41). A count of 0 ticks gives
0, which lies outside the band (log entry 10). -/
def frequencyOf (n ticks : Nat) : Nat := (2 * (n * 200000000) + ticks) / (2 * ticks)

/-- A frequency lies in 200,000 … 600,000 dHz (R41). -/
def freqInBand (f : Nat) : Bool := decide (200000 ≤ f ∧ f ≤ 600000)

/-- The load figure L = f² − fz² (R43). -/
def loadFigure (f fz : Nat) : Int := (f : Int) * f - (fz : Int) * fz

/-- The gross weight before it is held: L × span ÷ 2^32, rounded (R43). -/
def rawGross (f fz span : Nat) : Int := roundAway (loadFigure f fz * span) (2 ^ 32)

/-- The gross weight W, held within −20,000 … 250,000 (R43). -/
def grossOf (f fz span : Nat) : Int := clamp (-20000) 250000 (rawGross f fz span)

/-- The flag OVER_RANGE: W had to be held at a bound (R41, R43). -/
def overRange (f fz span : Nat) : Bool := decide (rawGross f fz span < -20000) || decide (250000 < rawGross f fz span)

/-! ## Captures (section 2.6) -/

/-- A capture is in progress. -/
def Capture.inProgress (c : Capture) : Bool := c.outcome == .inProgress

/-- CAL_DONE is raised on the supervisor link with the outcome as detail (R61). -/
def calDone (o : CaptureOutcome) (s : State) : State := raiseOn .supervisor .calDone o.code s

/-- The capture record ends with an outcome, and CAL_DONE is raised (R61). -/
def endCapture (c : Capture) (s : State) : State := calDone c.outcome (s.setWeigh { s.weigh with capture := c })

/-- A capture in progress is aborted (R60); with none in progress nothing happens. -/
def abortCapture (cause : AbortCause) (s : State) : State :=
  if s.weigh.capture.inProgress then
    endCapture { s.weigh.capture with outcome := .calAborted, abortCause := some cause } s
  else s

/-- A zero capture in progress is aborted by the eye; a span capture is not (R60). -/
def abortZeroByEye (s : State) : State := if s.weigh.capture.kind = .zero then abortCapture .eye s else s

/-- A capture starts: the record reads IN_PROGRESS with its kind and a count of 0 (R56). -/
def beginCapture (k : CaptureKind) (testMass : Option Nat) (s : State) : State :=
  s.setWeigh { s.weigh with capture := { Capture.reset with kind := k, outcome := .inProgress, testMass := testMass } }

/-- A zero capture starts, and is aborted at once where the platform state is WAIT_CLEAR (R56, R60). -/
def beginZeroCapture (s : State) : State :=
  let t := beginCapture .zero none s
  if s.weigh.platform = .waitClear then abortCapture .eye t else t

/-- The number of valid conversions of a capture (R57). -/
def captureLength : Nat := 64

/-- The mean frequency of a completed capture, rounded half up (R57). -/
def captureMean (c : Capture) : Nat := (2 * c.sum + captureLength) / (2 * captureLength)

/-- The calibration record's zero figure is replaced (R58, R153). -/
def setRecordZero (z : Nat) (s : State) : State :=
  { s with store := { s.store with calibration := s.store.calibration.map (fun k => { k with zeroFigure := z }) } }

/-- The calibration record's span is replaced (R59, R153). -/
def setRecordSpan (x : Nat) (s : State) : State :=
  { s with store := { s.store with calibration := s.store.calibration.map (fun k => { k with span := x }) } }

/-- A zero capture completes (R58). -/
def completeZero (c : Capture) (s : State) : State :=
  let m := captureMean c
  endCapture { c with outcome := .calOk, mean := some m, newValue := some m }
    (setRecordZero m (s.setWeigh { s.weigh with fz := some m, zeroState := .normal, zeroRun := 0 }))

/-- The span a span capture gives: absent where the load figure is at most 0 or the span leaves its range (R59). -/
def captureSpan (testMass mean fz : Nat) : Option Nat :=
  let l := loadFigure mean fz
  if l ≤ 0 then none
  else
    let x := (roundAway ((testMass : Int) * 2 ^ 32) l.toNat).toNat
    if 1 ≤ x ∧ x ≤ 16777215 then some x else none

/-- A span capture completes (R59). -/
def completeSpan (c : Capture) (s : State) : State :=
  let m := captureMean c
  match captureSpan (c.testMass.getD 0) m (s.weigh.fz.getD 0) with
  | none => endCapture { c with outcome := .calRange, mean := some m } s
  | some x =>
    endCapture { c with outcome := .calOk, mean := some m, newValue := some x }
      (setRecordSpan x (s.setWeigh { s.weigh with span := some x }))

/-- A valid conversion is taken into the capture in progress; the 64th completes it (R57). -/
def takeIntoCapture (f : Nat) (s : State) : State :=
  let c := { s.weigh.capture with count := s.weigh.capture.count + 1, sum := s.weigh.capture.sum + f }
  if captureLength ≤ c.count then (if c.kind = .zero then completeZero c s else completeSpan c s)
  else s.setWeigh { s.weigh with capture := c }

/-! ## Zero tracking (section 2.5) -/

/-- The tracking step of an empty conversion (R54). -/
def zeroTrack (f : Nat) (s : State) : State :=
  match s.weigh.fz with
  | none => s
  | some fz =>
    let d : Int := (f : Int) - fz
    if d.natAbs ≤ s.cal.zeroBand then
      s.setWeigh { s.weigh with fz := some ((fz : Int) + roundAway d (2 ^ s.cal.zeroRate)).toNat, zeroRun := 0 }
    else if 16 ≤ s.weigh.zeroRun + 1 then
      raiseAll .zeroLost (limitTo 32767 d) (s.setWeigh { s.weigh with zeroRun := 16, zeroState := .zeroFault })
    else s.setWeigh { s.weigh with zeroRun := s.weigh.zeroRun + 1 }

/-- The zero settle count has reached the zero settle setting (R54). -/
def settled (s : State) : Bool := decide (s.cal.zeroSettle ≤ s.weigh.settleCount)

/-- The zero settle count, counted up to the zero settle setting (R54). -/
def countSettle (s : State) : State :=
  if settled s then s else s.setWeigh { s.weigh with settleCount := s.weigh.settleCount + 1 }

/-- What a valid conversion does in EMPTY: the settle count, and then the capture in progress or the tracking step (R54,
R57). -/
def emptyConversion (f : Nat) (s : State) : State :=
  let t := countSettle s
  if s.weigh.capture.inProgress then
    if s.weigh.capture.kind = .zero then (if settled s then takeIntoCapture f t else t) else takeIntoCapture f t
  else if settled s && s.weigh.zeroState == .normal then zeroTrack f t
  else t

/-- What a valid conversion does in WAIT_CLEAR: a span capture takes it (R35, R57). -/
def waitClearConversion (f : Nat) (s : State) : State :=
  if s.weigh.capture.inProgress && s.weigh.capture.kind == .span then takeIntoCapture f s else s

/-! ## Weighings (section 2.4) -/

/-- The dwell buffer keeps the newest 24 weights (R45). -/
def dwellSize : Nat := 24

/-- A weight placed in the dwell buffer (R45). -/
def placeWeight (w : Int) (buffer : List Int) : List Int :=
  (if buffer.length < dwellSize then buffer else buffer.tail) ++ [w]

/-- What a valid conversion does to the weighing in progress (R45). -/
def Weighing.collect (w : Weighing) (gross : Int) (flagged : Bool) : Weighing :=
  if 0 < w.settle then { w with settle := w.settle - 1 }
  else if flagged then w
  else { w with buffer := placeWeight gross w.buffer }

/-- What a valid conversion does in DWELL (R45). -/
def dwellConversion (f : Nat) (w : Weighing) (s : State) : State :=
  let fz := s.weigh.fz.getD 0
  let span := s.weigh.span.getD 0
  s.setWeigh { s.weigh with platform := .dwell (w.collect (grossOf f fz span) (overRange f fz span)) }

/-- The result of a weighing: a gross weight, or the cause there is none (R46, R49). -/
inductive WeighResult where
  | gross (w : Int)
  | nothing (cause : NoReadingCause)
  deriving DecidableEq, Repr

/-- The weights that remain after the tail drop (R46). -/
def remaining (tailDrop : Nat) (buffer : List Int) : List Int := buffer.take (buffer.length - tailDrop)

/-- The result of a weighing that ends by departure (R46, R49). -/
def departureResult (zero : ZeroState) (k : Calibration) (w : Weighing) : WeighResult :=
  let rest := remaining k.tailDrop w.buffer
  if zero = .zeroFault then .nothing .zeroLost
  else if w.mark then .nothing .cellFault
  else if rest.length < k.minCount then .nothing .tooFew
  else .gross (roundAway rest.sum rest.length)

/-- The tare nominal of the recipe of a generation (R50). -/
def tareOf (st : Store) (g : Generation) : Int := ((st.recipeOf g).map Recipe.tareNominal).getD 0

/-- The reading posted to a record of generation `g` (R50, R51). -/
def readingOf (st : Store) (g : Generation) : WeighResult → Reading
  | .gross w => .valid w (w - tareOf st g)
  | .nothing c => .noReading c

/-- The reasons of a net weight under the record's own recipe (R82). -/
def netReasons (r : Recipe) (net : Int) : List Reason :=
  (if net < (r.targetNet : Int) - r.tolUnder then [.underweight] else []) ++
    (if (r.targetNet : Int) + r.tolOver < net then [.overweight] else [])

/-- The reasons that a reading gives (R82). -/
def readingReasons (st : Store) (g : Generation) : Reading → List Reason
  | .noReading _ => [.noReading]
  | .valid _ net => ((st.recipeOf g).map (fun r => netReasons r net)).getD []

/-- A valve in PROBATION. -/
def ValveState.onProbation : ValveState → Bool
  | .probation _ => true
  | _ => false

/-- The reason PROBATION of a record of origin FILLED, by its valve's state at the post (R82). -/
def probationReasons (s : State) (c : CanRecord) : List Reason :=
  match c.origin, c.valve with
  | .filled, some v => if (s.valve v).state.onProbation then [.probation] else []
  | _, _ => []

/-- The record a weighing is bound to: its serial, in stage ON_PLATFORM (R51). -/
def isBound (n : Serial) (c : CanRecord) : Bool := c.serial == n && c.stage == .onPlatform

/-- The record with the reading posted (R51, steps 1 to 3). -/
def postedRecord (s : State) (rd : Reading) (c : CanRecord) : CanRecord :=
  { c with reading := some rd, stage := .weighed }.withReasons
    (readingReasons s.store c.generation rd ++ probationReasons s c)

/-- A VALID reading of a record of origin FILLED goes on to the dose unit (R51, step 4). -/
def handToDose (rd : Reading) (c : CanRecord) (s : State) : State :=
  match rd, c.origin, c.valve with
  | .valid _ net, .filled, some v => controlReading v c.generation c.fillStatus net s
  | _, _, _ => s

/-- A result is posted to the record of serial `n`, or discarded where that record is not ON_PLATFORM in the queue (R51). -/
def postTo (n : Serial) (res : WeighResult) (s : State) : State :=
  match s.tracking.queue.find? (isBound n) with
  | none => s
  | some c =>
    let rd := readingOf s.store c.generation res
    handToDose rd c { s with tracking := { s.tracking with
      queue := mapFirst (isBound n) (postedRecord s rd) s.tracking.queue } }

/-- The result of a weighing is posted, or discarded where it is against nothing (R51). -/
def post (w : Weighing) (res : WeighResult) (s : State) : State :=
  match w.binding with
  | none => s
  | some n => postTo n res s

/-- The conversion in progress is dropped; the next begins at the next rising edge of the cell signal (R36, R46). While it
waits the counter counts on from 0. A drop that finds the counter already waiting, after an overflow and with no conversion in
progress, returns it to 0 too, where R40's words alone would let it count on: the model's choice (log entry 11). -/
def dropConversion (w : WeighUnit) : WeighUnit := { w with conversion := .waiting, period := 0 }

/-- The weighing ends by departure (R46). -/
def endByDeparture (w : Weighing) (s : State) : State :=
  post w (departureResult s.weigh.zeroState s.cal w)
    (s.setWeigh { dropConversion s.weigh with platform := .empty, settleCount := 0 })

/-- The weighing ends at once with no reading, and the unit waits for the eye to clear (R47, R52). -/
def endWithCause (cause : NoReadingCause) (s : State) : State :=
  match s.weigh.platform with
  | .dwell w => post w (.nothing cause) (s.setWeigh { s.weigh with platform := .waitClear })
  | _ => s

/-- FLUSH and RESTART end a weighing in progress and discard it (R53). -/
def discardWeighing (s : State) : State :=
  match s.weigh.platform with
  | .dwell _ => s.setWeigh { s.weigh with platform := .waitClear }
  | _ => s

/-- The dwell distance of the weighing in progress exceeds the max dwell (R47). -/
def bridgedDue (L : Layout) (s : State) : Bool :=
  match s.weigh.platform with
  | .dwell w => decide ((L.maxDwell : Int) < posDiff s.tracking.position w.arrival)
  | _ => false

/-! ## Conversions (section 2.2) -/

/-- A valid conversion of frequency `f` (R41, R42). -/
def validConversion (f : Nat) (s : State) : State :=
  let t := s.setWeigh { s.weigh with latest := some f, cellRun := 0, cellFault := false }
  match t.weigh.platform with
  | .idle => t
  | .empty => emptyConversion f t
  | .dwell w => dwellConversion f w t
  | .waitClear => waitClearConversion f t

/-- The cell fault mark is set on the weighing in progress (R48). -/
def Platform.marked : Platform → Platform
  | .dwell w => .dwell { w with mark := true }
  | .idle => .idle
  | .empty => .empty
  | .waitClear => .waitClear

/-- An invalid conversion: the eighth in a row makes the cell fault condition present and raises CELL_FAULT (R42, R48). -/
def invalidConversion (m : InvalidMark) (s : State) : State :=
  if s.weigh.cellRun = 7 then
    haltReason .cellFault m.code
      (s.setWeigh { s.weigh with cellRun := 8, cellFault := true, platform := s.weigh.platform.marked })
  else s.setWeigh { s.weigh with cellRun := satInc 255 s.weigh.cellRun }

/-- The conversion completes at its N-th edge, which is also the starting edge of the next (R39, R41). -/
def completeConversion (s : State) : State :=
  match s.weigh.conversion with
  | .running =>
    let f := frequencyOf s.cal.periodSetting s.weigh.period
    let t := s.setWeigh { s.weigh with period := 0 }
    if freqInBand f then validConversion f t else invalidConversion .outOfBand t
  | _ => s

/-- The largest value of the period counter. -/
def periodTop : Nat := 65535

/-- The period counter stands at 65,535 while it counts, so its next tick would pass it (R40). -/
def overflowDue (s : State) : Bool := s.weigh.conversion != .stopped && decide (periodTop ≤ s.weigh.period)

/-- The conversion completes as invalid with OVERFLOW; the counter returns to 0 and waits for a rising edge (R40). -/
def overflowConversion (s : State) : State :=
  if overflowDue s then invalidConversion .overflow (s.setWeigh (dropConversion s.weigh)) else s

/-- A rising edge of the cell signal begins a conversion with the period counter at 0 (R39). -/
def startConversion (s : State) : State :=
  match s.weigh.conversion with
  | .waiting => s.setWeigh { s.weigh with conversion := .running, period := 0 }
  | _ => s

/-! ## The eye's clearing edge (R38) -/

/-- The platform eye clears: a weighing ends by departure, and the unit enters EMPTY (R38, R46). -/
def clearEye (s : State) : State :=
  match s.weigh.platform with
  | .idle => s
  | .empty => s
  | .dwell w => endByDeparture w s
  | .waitClear => s.setWeigh { s.weigh with platform := .empty, settleCount := 0 }

/-- The eye pin takes a level; the edge acts unless the reset pin is held (R62). -/
def eyeEdge (blocked : Bool) (act : State → State) (s : State) : State :=
  unlessReset act { s with pins := { s.pins with eye := blocked } }

/-! ## Capture requests (R56, R61) -/

/-- A capture may start: READY, and no capture in progress (R56). -/
def captureAllowed (s : State) : Bool := s.control.state == .ready && !s.weigh.capture.inProgress

/-- ZERO CAPTURE, by the weigh unit (R56). -/
def ownZeroCapture (s : State) : Served :=
  if s.control.state ≠ .ready then refuse .state s
  else if s.weigh.capture.inProgress then refuse .busy s
  else ({ status := .ok, payload := [] }, beginZeroCapture s)

/-- SPAN CAPTURE, by the weigh unit (R56). -/
def ownSpanCapture (p : List Byte) (s : State) : Served :=
  if s.control.state ≠ .ready then refuse .state s
  else if s.weigh.capture.inProgress then refuse .busy s
  else if u24At p 0 < 1000 ∨ 250000 < u24At p 0 then refuse .range s
  else ({ status := .ok, payload := [] }, beginCapture .span (some (u24At p 0)) s)

/-- The bytes of the capture record (section 12.2). -/
def captureBytes (c : Capture) : List Byte :=
  u8 c.kind.code ++ u8 c.outcome.code ++ u8 c.count ++ u24 (c.mean.getD 0) ++ u24 (c.testMass.getD 0) ++
    u24 (c.newValue.getD 0) ++ u8 ((c.abortCause.map AbortCause.code).getD 0)

/-- CAPTURE RESULT, by the weigh unit (R61). -/
def ownCaptureResult (s : State) : Served := ({ status := .ok, payload := captureBytes s.weigh.capture }, s)

/-- EYE_CLEARING_EDGE (R38). -/
def execEyeClearingEdge (s : State) : Result := .next (eyeEdge false clearEye s)

/-- CONVERSION_COMPLETE (R41). -/
def execConversionComplete (s : State) : Result := .next (unlessReset completeConversion s)

/-- CONVERSION_OVERFLOW (R40). -/
def execConversionOverflow (s : State) : Result := .next (unlessReset overflowConversion s)

/-- CONVERSION_START (R39). -/
def execConversionStart (s : State) : Result := .next (unlessReset startConversion s)

/-- ZERO CAPTURE (R56). -/
def execZeroCapture (l : Link) (p : List Byte) (s : State) : Result :=
  .next (serve .zeroCapture l p none ownZeroCapture s)

/-- SPAN CAPTURE (R56). -/
def execSpanCapture (l : Link) (p : List Byte) (s : State) : Result :=
  .next (serve .spanCapture l p none (ownSpanCapture p) s)

/-- CAPTURE RESULT (R61). -/
def execCaptureResult (l : Link) (p : List Byte) (s : State) : Result :=
  .next (serve .captureResult l p none ownCaptureResult s)

end Sys2Proof.Machine
end

