-- ==== Sys2Proof/Machine/Tracking.lean ====
section
/-! DEFINITION. The tracking unit: position steps and station passes, platform arrivals, fill reports, flushes and queue views
(chapter 1). -/

namespace Sys2Proof.Machine

/-- The tracking unit replaced. -/
def State.setTracking (s : State) (t : Tracking) : State := { s with tracking := t }

/-- The transit queue replaced. -/
def State.setQueue (s : State) (q : List CanRecord) : State := s.setTracking { s.tracking with queue := q }

/-- The transit queue holds at most 192 records (R6). -/
def queueSize : Nat := 192

/-- The line is in RUN or HALT. -/
def OpState.working : OpState → Bool
  | .run => true
  | .halt => true
  | .config => false
  | .ready => false

/-! ## The slip run (R29) -/

/-- The slip run gains one; TRACK_SLIP is raised when it comes from below the slip alarm to it or above (R29). -/
def slipAdd (L : Layout) (s : State) : State :=
  let n := satInc 255 s.tracking.slip
  let t := s.setTracking { s.tracking with slip := n }
  if s.tracking.slip < L.slipAlarm ∧ L.slipAlarm ≤ n then haltReason .trackSlip n t else t

/-- The slip run set to 0 (R30, R171). -/
def slipZero (s : State) : State := s.setTracking { s.tracking with slip := 0 }

/-! ## Station passes (R17 to R21) -/

/-- The record marked MISSED (R18, R81). -/
def CanRecord.markedMissed (c : CanRecord) : CanRecord := { c with stage := .missed }.withReasons [.missed]

/-- The FILLED records marked MISSED, oldest first, up to the first that is not late (R17, R18). -/
def markMissed (late : CanRecord → Bool) : List CanRecord → List CanRecord
  | [] => []
  | c :: rest =>
    if c.stage = .filled then (if late c then c.markedMissed :: markMissed late rest else c :: rest)
    else c :: markMissed late rest

/-- How many records `markMissed` marks. -/
def countMissed (late : CanRecord → Bool) : List CanRecord → Nat
  | [] => 0
  | c :: rest =>
    if c.stage = .filled then (if late c then countMissed late rest + 1 else 0) else countMissed late rest

/-- The WEIGHED records that are overdue set to READ with NOREAD, oldest first, up to the first that is not (R17, R19). -/
def markUnread (st : Store) (late : CanRecord → Bool) : List CanRecord → List CanRecord
  | [] => []
  | c :: rest =>
    if c.stage = .weighed then
      (if late c then c.readAs st none .noRead :: markUnread st late rest else c :: rest)
    else c :: markUnread st late rest

/-- A record's elapsed distance at `x` exceeds the platform distance plus the platform window (R18). -/
def pastPlatform (L : Layout) (x : Position) (c : CanRecord) : Bool :=
  decide ((L.platformDistance : Int) + L.platformWindow < c.elapsed x)

/-- A record's elapsed distance at `x` exceeds the reader distance plus the reader window (R19). -/
def pastReader (L : Layout) (x : Position) (c : CanRecord) : Bool :=
  decide ((L.readerDistance : Int) + L.readerWindow < c.elapsed x)

/-- The platform pass, which is also what an arrival does with the late records it finds: in RUN and HALT each mark adds to
the slip run (R17, R18, R21, R24). -/
def platformPass (L : Layout) (s : State) : State :=
  let late := pastPlatform L s.tracking.position
  let t := s.setQueue (markMissed late s.tracking.queue)
  if s.control.state.working then iterate (slipAdd L) (countMissed late s.tracking.queue) t else t

/-- The read pass (R17, R19). -/
def readPass (L : Layout) (s : State) : State :=
  s.setQueue (markUnread s.store (pastReader L s.tracking.position) s.tracking.queue)

/-- The gate pass over the whole queue (R17, R20). -/
def wholeGatePass (L : Layout) (s : State) : State := gatePass L s.tracking.queue.length s

/-- The three passes of a position step and, where the dwell distance exceeds the max dwell, the end of the weighing. The manual
lets that end fall before, between or after the passes (R47, R84): a free choice (log entry 2). -/
def examineStations (L : Layout) (s : State) : State :=
  if bridgedDue L s then
    let bridge := endWithCause .bridged
    let t := s.chosen
    match s.choice % 4 with
    | 0 => wholeGatePass L (readPass L (platformPass L (bridge t)))
    | 1 => wholeGatePass L (readPass L (bridge (platformPass L t)))
    | 2 => wholeGatePass L (bridge (readPass L (platformPass L t)))
    | _ => bridge (wholeGatePass L (readPass L (platformPass L t)))
  else wholeGatePass L (readPass L (platformPass L s))

/-- A position step: the counter advances by one, wrapping, and the stations are examined (R4, R17). -/
def positionStep (s : State) : State :=
  let t := s.setTracking { s.tracking with position := s.tracking.position + 1 }
  match s.store.layout with
  | none => t
  | some L => examineStations L t

/-- The encoder divider in place; 1 while no layout record is present (R3). -/
def State.divider (s : State) : Nat := (s.store.layout.map Layout.divider).getD 1

/-- A rising edge of the encoder is counted; at the divider a position step is taken (R3). -/
def countPulse (s : State) : State :=
  if s.divider ≤ s.tracking.residue + 1 then positionStep (s.setTracking { s.tracking with residue := 0 })
  else s.setTracking { s.tracking with residue := s.tracking.residue + 1 }

/-! ## Making records (R9, R11, R25 to R27) -/

/-- A new record takes the can serial and the current generation, and the serial counter advances (R7, R9); the queue is
replaced by the one that holds it, and the record is reported to the store (R158). -/
def joinQueue (q : List CanRecord) (s : State) : State :=
  recordMade (s.setTracking { s.tracking with queue := q, serial := s.tracking.serial + 1 })

/-- The later of an estimated discharge position and that of the record before, by R5 (R14, R25, R26). -/
def heldBack (before : Option CanRecord) (x : Position) : Position :=
  match before with
  | none => x
  | some c => if 0 < posDiff c.discharge x then c.discharge else x

/-- An orphan's estimated discharge position before it is held back: `x` minus the platform distance (R25, R26). -/
def orphanEstimate (L : Layout) (x : Position) : Position := x - BitVec.ofNat 24 L.platformDistance

/-- An orphan record (R27). -/
def orphanRecord (s : State) (discharge : Position) : CanRecord :=
  { serial := s.tracking.serial, origin := .orphan, valve := none, generation := s.store.currentGeneration,
    discharge := discharge, doseUsed := none, fillStatus := .normal, stage := .onPlatform, reading := none, code := none,
    codeStatus := .notYet, reasons := [.orphan], verdict := none }

/-- The records before the oldest FILLED record; the whole queue where there is none. -/
def beforeFilled (q : List CanRecord) : List CanRecord := q.takeWhile (fun c => c.stage != .filled)

/-- The records from the oldest FILLED record on. -/
def fromFilled (q : List CanRecord) : List CanRecord := q.dropWhile (fun c => c.stage != .filled)

/-- What the tracking unit did with an arrival: the binding of the weighing that follows, and the state (R44). -/
abbrev Arrived := Option Serial × State

/-- An orphan is made before the oldest FILLED record, or at the tail where there is none; at a full queue none is made, and
TRACK_OVERFLOW is raised with detail 0 (R25 to R28). -/
def makeOrphan (L : Layout) (s : State) : Arrived :=
  if queueSize ≤ s.tracking.queue.length then (none, haltReason .trackOverflow 0 s)
  else
    let ahead := beforeFilled s.tracking.queue
    let o := orphanRecord s (heldBack ahead.getLast? (orphanEstimate L s.tracking.position))
    (some o.serial, slipAdd L (joinQueue (ahead ++ o :: fromFilled s.tracking.queue) s))

/-- The oldest FILLED record is claimed: ON_PLATFORM, and the slip run becomes 0 (R23). -/
def claim (c : CanRecord) (s : State) : Arrived :=
  (some c.serial, slipZero (s.setQueue
    (mapFirst (fun q => q.stage == .filled) (fun q => { q with stage := .onPlatform }) s.tracking.queue)))

/-- A platform arrival in RUN or HALT (R22 to R28). -/
def arrive (L : Layout) (s : State) : Arrived :=
  let t := platformPass L s
  match t.tracking.queue.find? (fun c => c.stage == .filled) with
  | some c =>
    if (L.platformDistance : Int) - L.platformWindow ≤ c.elapsed t.tracking.position then claim c t else makeOrphan L t
  | none => makeOrphan L t

/-- A weighing starts with its binding (R44, R48). -/
def startWeighing (a : Arrived) : State :=
  let w : Weighing :=
    { binding := a.1, arrival := a.2.tracking.position, settle := a.2.cal.settleSkip, buffer := [],
      mark := a.2.weigh.cellFault }
  a.2.setWeigh { a.2.weigh with platform := .dwell w }

/-- The platform eye blocks (R37). -/
def blockEye (s : State) : State :=
  match s.weigh.platform with
  | .empty =>
    if s.control.state.working then
      match s.store.layout with
      | none => startWeighing (none, s)
      | some L => startWeighing (arrive L s)
    else abortZeroByEye (s.setWeigh { s.weigh with platform := .waitClear })
  | _ => s

/-! ## Fill reports (section 1.3) -/

/-- The valve of a FILL REPORT payload. -/
def fillValve (p : List Byte) : Nat := u8At p 0

/-- The dose used of a FILL REPORT payload. -/
def fillDose (p : List Byte) : Nat := u16At p 1

/-- The fill status of a FILL REPORT payload: 0 NORMAL, 1 SHORT, 2 VALVE_FAULT, 3 NO_CAN (R214). -/
def fillCode (p : List Byte) : Nat := u8At p 3

/-- The fill status of a record by the valve's state and the reported status (R11). -/
def recordFillStatus (vs : ValveState) (code : Nat) : FillStatus :=
  match vs with
  | .blocked _ => .blockedFill
  | _ => if code = 1 then .short else .normal

/-- The reasons a fill status gives a new record (R81). -/
def fillReasons : FillStatus → List Reason
  | .normal => []
  | .short => [.fillShort]
  | .blockedFill => [.blockedFill]

/-- The record of a fill report at the tail of the queue (R11, R14). -/
def filledRecord (p : List Byte) (stamp : Position) (s : State) : CanRecord :=
  let fs := recordFillStatus (s.valve (fillValve p)).state (fillCode p)
  { serial := s.tracking.serial, origin := .filled, valve := some (fillValve p),
    generation := s.store.currentGeneration, discharge := heldBack s.tracking.queue.getLast? stamp,
    doseUsed := some (fillDose p), fillStatus := fs, stage := .filled, reading := none, code := none,
    codeStatus := .notYet, reasons := fillReasons fs, verdict := none }

/-- The answer to a FILL REPORT that was taken: the serial of the record made, the valve's dose and its state (R16). -/
def fillServed (st : Status) (serial : Option Serial) (v : Nat) (s : State) : Served :=
  ({ status := st, payload := withPresence u16 (serial.map BitVec.toNat) ++ doseAndState s v }, serveDose .filler v s)

/-- A FILL REPORT that makes a record where the queue has room, and raises TRACK_OVERFLOW where it has none (R11, R15). -/
def fillRecord (p : List Byte) (stamp : Position) (s : State) : Served :=
  if queueSize ≤ s.tracking.queue.length then
    fillServed .queueFull none (fillValve p) (haltReason .trackOverflow (fillValve p) s)
  else
    fillServed .ok (some s.tracking.serial) (fillValve p)
      (joinQueue (s.tracking.queue ++ [filledRecord p stamp s]) s)

/-- The field checks of a FILL REPORT fail (R10). -/
def fillOutOfRange (p : List Byte) (s : State) : Bool :=
  !s.valveInRange (fillValve p) || decide (3 < fillCode p) || (fillCode p != 3 && fillDose p == 0)

/-- FILL REPORT, by the tracking unit (R10 to R16). -/
def ownFillReport (p : List Byte) (stamp : Position) (s : State) : Served :=
  if !s.control.state.working then refuse .state s
  else if fillOutOfRange p s then refuse .range s
  else if fillCode p = 3 then fillServed .ok none (fillValve p) s
  else if fillCode p = 2 then fillRecord p stamp (faultBlock (fillValve p) s)
  else fillRecord p stamp s

/-! ## Flushing and viewing (R31, R33) -/

/-- Records passed to the can list with the verdict FLUSHED, head first, each departure reported to the store (R31, R93). -/
def flushRecords : List CanRecord → State → State
  | [], s => s
  | c :: rest, s => flushRecords rest (departed c.generation (appendSummary (summaryOf c .flushed false) s))

/-- The queue is flushed, and a weighing in progress is discarded (R31, R53). -/
def flushQueue (s : State) : State := discardWeighing (flushRecords s.tracking.queue (s.setQueue []))

/-- The answer of the state requests: the operating state after the request (section 12.2). -/
def stateServed (s : State) : Served := ({ status := .ok, payload := u8 s.control.state.code }, s)

/-- FLUSH, by the tracking unit (R31). -/
def ownFlush (s : State) : Served := if s.control.state = .config then refuse .state s else stateServed (flushQueue s)

/-- The bytes of a record view at position `x` (section 12.4). R213 gives no byte order for a mask: that the reasons go most
significant byte first is the model's choice (log entry 28). -/
def recordViewBytes (x : Position) (c : CanRecord) : List Byte :=
  u16 c.serial.toNat ++ u8 c.origin.code ++ u8 (c.valve.getD 0) ++ u8 c.generation.toNat ++ s24 (c.elapsed x) ++
    u16 (c.doseUsed.getD 0) ++ u8 c.fillStatus.code ++ u8 c.stage.code ++ u8 (readingCode c.reading) ++
    s24 (readingGross c.reading) ++ s24 (readingNet c.reading) ++ u8 c.codeStatus.code ++
    u16 (maskOf Reason.inOrder c.reasons)

/-- A record view takes 22 bytes, and the fixed fields of a QUEUE VIEW answer 6, so at most 5 views have room (R202). -/
def viewRoom : Nat := (payloadRoom - 6) / 22

/-- The records a QUEUE VIEW returns (R33, R202). -/
def viewedRecords (start n : Nat) (q : List CanRecord) : List CanRecord := (q.drop start).take (min n viewRoom)

/-- QUEUE VIEW, by the tracking unit (R33). -/
def ownQueueView (p : List Byte) (s : State) : Served :=
  let start := u8At p 0
  let n := u8At p 1
  if 191 < start ∨ n < 1 ∨ 8 < n then refuse .range s
  else
    let got := viewedRecords start n s.tracking.queue
    ({ status := .ok,
       payload := u24 s.tracking.position.toNat ++ u8 s.tracking.queue.length ++ u8 start ++ u8 got.length ++
         got.flatMap (recordViewBytes s.tracking.position) }, s)

/-- FILL REPORT (R10 to R16). -/
def execFillReport (l : Link) (p : List Byte) (stamp : Position) (s : State) : Result :=
  .next (serve .fillReport l p (if l = .filler then some stamp else none) (ownFillReport p stamp) s)

/-- FLUSH (R31). -/
def execFlush (l : Link) (p : List Byte) (s : State) : Result := .next (serve .flush l p none ownFlush s)

/-- QUEUE VIEW (R33). -/
def execQueueView (l : Link) (p : List Byte) (s : State) : Result := .next (serve .queueView l p none (ownQueueView p) s)

/-- ENCODER_PULSE (R3, R4, R17). -/
def execEncoderPulse (s : State) : Result := .next (unlessReset countPulse s)

/-- EYE_BLOCKING_EDGE (R22, R37). -/
def execEyeBlockingEdge (s : State) : Result := .next (eyeEdge true blockEye s)

end Sys2Proof.Machine
end

