-- ==== Sys2Proof/Machine/Settings.lean ====
section
/-! DEFINITION. The settings store: loading and reading the layout, calibration and recipe records (chapter 7). -/

namespace Sys2Proof.Machine

/-- The settings store replaced. -/
def State.setStore (s : State) (st : Store) : State := { s with store := st }

/-- Layout, calibration and current recipe are all present (R170). -/
def Store.complete (st : Store) : Bool := st.layout.isSome && st.calibration.isSome && st.current.isSome

/-- After an accepted load the part passes from CONFIG to READY where all three records are present (R170). -/
def passToReady (s : State) : State :=
  if s.control.state = .config ∧ s.store.complete then { s with control := { s.control with state := .ready } } else s

/-- A load is taken in CONFIG and READY (R150, R152). -/
def loadState (op : OpState) : Bool := op == .config || op == .ready

/-! ## LAYOUT LOAD (R149, R150) -/

/-- An entry that has come into use: ACTIVE with the values after reset (R130). -/
def freshValve : Valve := { Valve.reset with state := .active }

/-- The valve table under a new valve count: entries come into use or leave it (R130, R131). -/
def resizeTable (old new : Nat) (vs : List Valve) : List Valve :=
  vs.mapIdx (fun i e =>
    if old ≤ i ∧ i < new then freshValve else if new ≤ i ∧ i < old then Valve.reset else e)

/-- An accepted layout record takes effect (R150). -/
def installLayout (r : Layout) (s : State) : State :=
  passToReady
    { s with
      tracking := { s.tracking with residue := 0 }
      dose := { s.dose with valves := resizeTable s.valveCount r.valveCount s.dose.valves }
      store := { s.store with layout := some r } }

/-- LAYOUT LOAD, by the settings store (R147, R149, R150, R123). -/
def ownLayoutLoad (p : List Byte) (s : State) : Served :=
  if !loadState s.control.state then refuse .state s
  else if !layoutValid (layoutOf p) then refuse .range s
  else if (layoutOf p).valveCount ≠ s.valveCount ∧ s.frozen then refuse .state s
  else ({ status := .ok, payload := u8 (layoutOf p).valveCount }, installLayout (layoutOf p) s)

/-! ## CAL LOAD (R151, R152) -/

/-- The platform state after a calibration load: leaving IDLE, the eye is sampled (R36). -/
def platformAfterLoad (eye : Bool) : Platform → Platform
  | .idle => if eye then .waitClear else .empty
  | .empty => .empty
  | .dwell w => .dwell w
  | .waitClear => .waitClear

/-- The weigh unit takes a new calibration record (R36). -/
def weighLoad (r : Calibration) (eye : Bool) (w : WeighUnit) : WeighUnit :=
  { dropConversion w with
    fz := some r.zeroFigure, span := some r.span, zeroState := .normal, zeroRun := 0, settleCount := 0,
    platform := platformAfterLoad eye w.platform }

/-- An accepted calibration record takes effect (R36, R60, R152). -/
def installCalibration (r : Calibration) (s : State) : State :=
  let t := abortCapture .calLoad s
  passToReady
    { t with weigh := weighLoad r t.pins.eye t.weigh, store := { t.store with calibration := some r } }

/-- CAL LOAD, by the settings store (R147, R151, R152). -/
def ownCalLoad (p : List Byte) (s : State) : Served :=
  if !loadState s.control.state then refuse .state s
  else if !calibrationValid (calibrationOf p) then refuse .range s
  else ({ status := .ok, payload := [] }, installCalibration (calibrationOf p) s)

/-! ## RECIPE LOAD (R154 to R165) -/

/-- The accumulator under a new recipe with keep trims set: its old trim carried over and clamped (R165). With no outgoing
recipe the old trim is 0. -/
def keptAccumulator (old : Option Recipe) (new : Recipe) (a : Int) : Int :=
  limitTo (accLimit new) ((old.map (fun r => trimOf a r.shift)).getD 0 * 2 ^ new.shift)

/-- The accumulator of an installation (R164, R165). -/
def convertAccumulator (keep : Bool) (old : Option Recipe) (new : Recipe) (a : Int) : Int :=
  if keep then keptAccumulator old new a else 0

/-- The dose unit acts on a new current recipe (R124, R164, R165). -/
def doseInstall (keep : Bool) (old : Option Recipe) (new : Recipe) (n : Nat) (d : DoseUnit) : DoseUnit :=
  { d with
    valves := (mapUsed n (fun e => { e with accumulator := convertAccumulator keep old new e.accumulator }) d.valves).map
      (fun e => { e with netWindow := [], alertArmed := true })
    lineOffset := if keep then limitTo new.lineLimit d.lineOffset else 0
    centering := 0 }

/-- Step 4 of an installation: a previous recipe whose count is 0 is retired at once (R160). -/
def retireIfEmpty (s : State) : State :=
  match s.store.previous with
  | some h => if h.count = 0 then retirePrevious h.generation s else s
  | none => s

/-- The outgoing recipe becomes previous and the loaded one current (R160, steps 1 and 2). -/
def Store.installed (st : Store) (r : Recipe) : Store :=
  { st with
    previous := (match st.current with
      | some h => some h
      | none => st.previous)
    current := some { recipe := r, generation := st.nextGeneration, count := 0 }
    nextGeneration := st.nextGeneration + 1 }

/-- An installation (R160), and the report to the state controller (R170). -/
def installRecipe (r : Recipe) (keep : Bool) (s : State) : State :=
  passToReady (retireIfEmpty
    { s with store := s.store.installed r, dose := doseInstall keep s.recipe r s.valveCount s.dose })

/-- The answer to an accepted RECIPE LOAD: the generation installed and that of the previous recipe (R159). -/
def recipeServed (s : State) : Served :=
  ({ status := .ok,
     payload := u8 s.store.currentGeneration.toNat ++
       withPresence u8 (s.store.previous.map (fun h => h.generation.toNat)) }, s)

/-- RECIPE LOAD is not taken in CONFIG without a layout record (R159). -/
def recipeState (s : State) : Bool := s.control.state != .config || s.store.layout.isSome

/-- RECIPE LOAD, by the settings store (R147, R154, R155, R159 to R161). -/
def ownRecipeLoad (p : List Byte) (s : State) : Served :=
  let r := recipeOfPayload p
  let keep := keepTrimsOf p
  if !recipeState s then refuse .state s
  else if !recipeFlagsValid p || !recipeValid r then refuse .range s
  else
    match s.store.previous with
    | none => recipeServed (installRecipe r keep s)
    | some h =>
      if s.control.state.working then
        ({ status := .recipeBusy, payload := u8 h.generation.toNat ++ u8 h.count }, s)
      else recipeServed (installRecipe r keep (flushQueue s))

/-! ## RECORD READ (R148) -/

/-- A held recipe as RECORD READ gives it: its generation, then the record with the keep-trims flag clear (R148, R156). -/
def heldRecipeBytes (h : HeldRecipe) : List Byte := u8 h.generation.toNat ++ recipeBytes h.recipe false

/-- A record behind its presence byte (section 12.3). -/
def presentBytes {α : Type} (f : α → List Byte) : Option α → List Byte
  | some x => flagByte true ++ f x
  | none => flagByte false

/-- RECORD READ, by the settings store (R148). -/
def ownRecordRead (p : List Byte) (s : State) : Served :=
  if u8At p 0 = 0 then ({ status := .ok, payload := presentBytes layoutBytes s.store.layout }, s)
  else if u8At p 0 = 1 then ({ status := .ok, payload := presentBytes calibrationBytes s.store.calibration }, s)
  else if u8At p 0 = 2 then ({ status := .ok, payload := presentBytes heldRecipeBytes s.store.current }, s)
  else if u8At p 0 = 3 then ({ status := .ok, payload := presentBytes heldRecipeBytes s.store.previous }, s)
  else refuse .range s

/-- LAYOUT LOAD (R150). -/
def execLayoutLoad (l : Link) (p : List Byte) (s : State) : Result :=
  .next (serve .layoutLoad l p none (ownLayoutLoad p) s)

/-- CAL LOAD (R152). -/
def execCalLoad (l : Link) (p : List Byte) (s : State) : Result := .next (serve .calLoad l p none (ownCalLoad p) s)

/-- RECIPE LOAD (R159). -/
def execRecipeLoad (l : Link) (p : List Byte) (s : State) : Result :=
  .next (serve .recipeLoad l p none (ownRecipeLoad p) s)

/-- RECORD READ (R148). -/
def execRecordRead (l : Link) (p : List Byte) (s : State) : Result :=
  .next (serve .recordRead l p none (ownRecordRead p) s)

end Sys2Proof.Machine
end

