-- ==== Sys2Proof/Machine/StateControl.lean ====
section
/-! DEFINITION. The state controller: the state requests, the line command decoder and the line commands (chapter 8). -/

namespace Sys2Proof.Machine

/-- The state controller replaced. -/
def State.setControl (s : State) (c : Control) : State := { s with control := c }

/-- The unconfirmed run set to 0 (R90). -/
def unconfirmedZero (s : State) : State := { s with gate := { s.gate with unconfirmed := 0 } }

/-- The operating state entered, with the line stop output released (R173). -/
def enterState (op : OpState) (s : State) : State := s.setControl { s.control with state := op, lineStop := false }

/-! ## START, STOP, CLEAR and RESTART -/

/-- A START that is taken (R171). -/
def startLine (s : State) : State :=
  enterState .run (unconfirmedZero (slipZero (abortCapture .start s)))

/-- START, by the state controller (R171). -/
def ownStart (s : State) : Served :=
  if s.control.state ≠ .ready ∨ s.weigh.cellFault then refuse .state s else stateServed (startLine s)

/-- A STOP that is taken (R52, R174). -/
def stopLine (s : State) : State := enterState .ready (endWithCause .flushedDuringDwell s)

/-- STOP, by the state controller (R174). -/
def ownStop (s : State) : Served := if !s.control.state.working then refuse .state s else stateServed (stopLine s)

/-- CLEAR is taken: HALT, and no cell fault condition (R175). -/
def clearAllowed (s : State) : Bool := s.control.state == .halt && !s.weigh.cellFault

/-- A CLEAR that is taken (R30, R90, R175). -/
def clearLine (s : State) : State := enterState .run (unconfirmedZero (slipZero s))

/-- CLEAR, by the state controller (R175). -/
def ownClear (s : State) : Served := if clearAllowed s then stateServed (clearLine s) else refuse .state s

/-- A valve entry at RESTART: BLOCKED stays with its holder, UNUSED stays, and any other state becomes ACTIVE (R125). -/
def ValveState.restarted : ValveState → ValveState
  | .unused => .unused
  | .active => .active
  | .probation _ => .active
  | .suspect => .active
  | .blocked h => .blocked h

/-- The dose unit at RESTART (R125). -/
def doseRestart (d : DoseUnit) : DoseUnit :=
  { valves := d.valves.map (fun e =>
      { e with state := e.state.restarted, accumulator := 0, limitRun := 0, ootRun := 0, netWindow := [],
               alertArmed := true })
    lineOffset := 0, centering := 0, freeze := { line := false, supervisor := false } }

/-- The state RESTART enters: READY, or CONFIG where the part was in CONFIG (R176). -/
def OpState.restarted : OpState → OpState
  | .config => .config
  | .ready => .ready
  | .run => .ready
  | .halt => .ready

/-- RESTART (R32, R53, R60, R90, R97, R125, R167, R176). -/
def restartLine (s : State) : State :=
  let t := unconfirmedZero (abortCapture .restart (slipZero (flushQueue s)))
  enterState s.control.state.restarted { t with dose := doseRestart t.dose }

/-! ## The line command decoder (R178) -/

/-- How long the current spell has lasted. -/
def State.spell (s : State) : Nat := s.now - s.control.spellStart

/-- A command is abandoned: one more line command error, and RECOVER (R178). -/
def abandonCommand (s : State) : State :=
  s.setControl { s.control with decoder := .recover, errors := satInc 65535 s.control.errors }

/-- The decoder enters a state. -/
def setDecoder (d : LineDecoder) (s : State) : State := s.setControl { s.control with decoder := d }

/-- A low has reached beyond its bound: over 60 ms in LEAD, over 15 ms in PULSE (R178). -/
def lowOverrun (s : State) : Bool :=
  match s.control.decoder with
  | .lead => decide (ms 60 < s.spell)
  | .pulse _ => decide (ms 15 < s.spell)
  | _ => false

/-- The input has stayed high for 40 ms in RECOVER (R178). -/
def recovered (s : State) : Bool := s.control.decoder == .recover && s.pins.lcmdHigh && decide (ms 40 ≤ s.spell)

/-- The spell timer reaches a bound that does not end a command (R178). -/
def spellTimeout (s : State) : State :=
  if lowOverrun s then abandonCommand s else if recovered s then setDecoder .idle s else s

/-- The count of the command that the closing high ends: a high of 40 ms in GAP or SPACE (R178). -/
def commandEnd (s : State) : Option Nat :=
  match s.control.decoder with
  | .gap => if ms 40 ≤ s.spell then some 0 else none
  | .space n => if ms 40 ≤ s.spell then some n else none
  | _ => none

/-! ## Line commands (R179) -/

/-- A line command 1 … 5 is handed to its owner, which takes or ignores it; the last line command records which (R179). -/
def handLine (n : Nat) (allowed : State → Bool) (act : State → State) (s : State) : State :=
  let t := if allowed s then act s else s
  t.setControl { t.control with lastCommand := some { number := n, taken := allowed s } }

/-- Line command 1, CLEAR (R175). -/
def handClear : State → State := handLine 1 clearAllowed clearLine

/-- Line command 2, FREEZE (R122). -/
def handFreeze : State → State :=
  handLine 2 (fun _ => true) (fun s => setFreeze { s.dose.freeze with line := true } s)

/-- Line command 3, THAW (R122). -/
def handThaw : State → State :=
  handLine 3 (fun _ => true) (fun s => setFreeze { s.dose.freeze with line := false } s)

/-- Line command 4, FLUSH (R31). -/
def handFlush : State → State := handLine 4 (fun s => s.control.state != .config) flushQueue

/-- Line command 5, ZERO CAPTURE (R56). -/
def handZeroCapture : State → State := handLine 5 captureAllowed beginZeroCapture

/-- A count of 0, 6, 7 or 8 adds one to the error count (R179). -/
def badCount (s : State) : State := s.setControl { s.control with errors := satInc 65535 s.control.errors }

/-- The command of count `n` is handed on (R179). -/
def handCommand (n : Nat) (s : State) : State :=
  match n with
  | 1 => handClear s
  | 2 => handFreeze s
  | 3 => handThaw s
  | 4 => handFlush s
  | 5 => handZeroCapture s
  | _ => badCount s

/-- A command ends where its count is `n`: the decoder enters IDLE, and `act` hands the command on (R178). -/
def endCommand (n : Nat) (act : State → State) (s : State) : State :=
  if commandEnd s = some n then act (setDecoder .idle s) else s

/-- A command whose count is none of 1 … 5 ends (R179). -/
def endBadCount (s : State) : State :=
  match commandEnd s with
  | some n => if 1 ≤ n ∧ n ≤ 5 then s else badCount (setDecoder .idle s)
  | none => s

/-- A bound that the spell timer has reached, and that no command has yet taken, is taken before an edge (R178; log
entry 8). -/
def settleSpell (s : State) : State :=
  match commandEnd s with
  | some n => handCommand n (setDecoder .idle s)
  | none => spellTimeout s

/-- What a falling edge does, by the state of the decoder (R178). -/
def fallingEffect (s : State) : State :=
  match s.control.decoder with
  | .idle => setDecoder .lead s
  | .lead => s
  | .gap => if ms 10 ≤ s.spell then setDecoder (.pulse 0) s else abandonCommand s
  | .pulse _ => s
  | .space n =>
    if ms 5 ≤ s.spell ∧ s.spell ≤ ms 15 ∧ n < 8 then setDecoder (.pulse n) s else abandonCommand s
  | .recover => s

/-- What a rising edge does, by the state of the decoder (R178). -/
def risingEffect (s : State) : State :=
  match s.control.decoder with
  | .idle => s
  | .lead => if ms 20 ≤ s.spell then setDecoder .gap s else abandonCommand s
  | .gap => s
  | .pulse n => if ms 5 ≤ s.spell then setDecoder (.space (n + 1)) s else abandonCommand s
  | .space _ => s
  | .recover => s

/-- The level of the line command pin, and the spell timed from this edge. -/
def newSpell (high : Bool) (s : State) : State :=
  { s with pins := { s.pins with lcmdHigh := high }, control := { s.control with spellStart := s.now } }

/-- A falling edge of the line command input (R178). While the reset pin is held only the pin's level is noted (R180). -/
def lineFalls (s : State) : State :=
  if !s.pins.lcmdHigh then s
  else if s.resetHeld then newSpell false s
  else newSpell false (fallingEffect (settleSpell s))

/-- A rising edge of the line command input (R178). -/
def lineRises (s : State) : State :=
  if s.pins.lcmdHigh then s
  else if s.resetHeld then newSpell true s
  else newSpell true (risingEffect (settleSpell s))

/-- START (R171). -/
def execStart (l : Link) (p : List Byte) (s : State) : Result := .next (serve .start l p none ownStart s)

/-- STOP (R174). -/
def execStop (l : Link) (p : List Byte) (s : State) : Result := .next (serve .stop l p none ownStop s)

/-- CLEAR (R175). -/
def execClear (l : Link) (p : List Byte) (s : State) : Result := .next (serve .clear l p none ownClear s)

/-- RESTART (R176). -/
def execRestart (l : Link) (p : List Byte) (s : State) : Result :=
  .next (serve .restart l p none (fun t => stateServed (restartLine t)) s)

/-- LCMD_FALLING_EDGE (R178). -/
def execLcmdFallingEdge (s : State) : Result := .next (lineFalls s)

/-- LCMD_RISING_EDGE (R178). -/
def execLcmdRisingEdge (s : State) : Result := .next (lineRises s)

/-- LCMD_SPELL_TIMEOUT (R178). -/
def execLcmdSpellTimeout (s : State) : Result := .next (unlessReset spellTimeout s)

/-- LINE_CLEAR (R175, R179). -/
def execLineClear (s : State) : Result := .next (unlessReset (endCommand 1 handClear) s)

/-- LINE_FREEZE (R122, R179). -/
def execLineFreeze (s : State) : Result := .next (unlessReset (endCommand 2 handFreeze) s)

/-- LINE_THAW (R122, R179). -/
def execLineThaw (s : State) : Result := .next (unlessReset (endCommand 3 handThaw) s)

/-- LINE_FLUSH (R31, R179). -/
def execLineFlush (s : State) : Result := .next (unlessReset (endCommand 4 handFlush) s)

/-- LINE_ZERO_CAPTURE (R56, R179). -/
def execLineZeroCapture (s : State) : Result := .next (unlessReset (endCommand 5 handZeroCapture) s)

/-- LINE_COMMAND_BAD_COUNT (R179). -/
def execLineCommandBadCount (s : State) : Result := .next (unlessReset endBadCount s)

end Sys2Proof.Machine
end

