-- ==== Sys2Proof/Machine/LidCode.lean ====
section
/-! DEFINITION. The reader link's reception, the message assembler and the matching of messages (chapter 3). -/

namespace Sys2Proof.Machine

/-- The code unit replaced. -/
def State.setCode (s : State) (c : CodeUnit) : State := { s with code := c }

/-- The reader channel replaced. -/
def State.setReader (s : State) (p : Port) : State := { s with reader := p }

/-! ## Storing entries (R63, R64, R182) -/

/-- A receive FIFO holds 128 entries. -/
def Receiver.full (rx : Receiver) : Bool := decide (fifoSize ≤ rx.fifo.length)

/-- An entry is stored, carrying the overrun flag after one or more losses; `watch` is the silence watched after it. -/
def Receiver.store (rx : Receiver) (e : Bool → Entry) (watch : Option Moment) : Receiver :=
  { rx with fifo := rx.fifo ++ [e rx.lost], lost := false, silence := watch }

/-- An entry is lost at a full FIFO; no silence is watched after it. -/
def Receiver.lose (rx : Receiver) : Receiver := { rx with lost := true, silence := none }

/-- More than 3 character times have passed since the stop bit of the last stored character. That bit was judged at its middle,
half a bit before its end (R64, R182, R183; log entry 12). -/
def Port.silent (p : Port) (now : Moment) : Bool :=
  match p.rx.silence with
  | some t => exceedsHalfBits p.straps 67 (now - t)
  | none => false

/-! ## Flow control toward the reader (R70, R71) -/

/-- Xoff and Xon. -/
def xoff : Byte := 0x13

/-- Xon. -/
def xon : Byte := 0x11

/-- A character placed in the reader link's transmit FIFO (log entry 18). -/
def placeReader (c : Byte) (s : State) : State :=
  s.setReader { s.reader with tx := { s.reader.tx with fifo := s.reader.tx.fifo ++ [c] } }

/-- After an entry is stored: at level 96 from OPEN one Xoff is placed (R70). -/
def afterStore (s : State) : State :=
  if s.reader.rx.fifo.length = 96 ∧ s.code.flow = .opened then
    (placeReader xoff s).setCode { s.code with flow := .held }
  else s

/-- After an entry is taken: at level 32 from HELD one Xon is placed (R71). -/
def afterTake (s : State) : State :=
  if s.reader.rx.fifo.length = 32 ∧ s.code.flow = .held then
    (placeReader xon s).setCode { s.code with flow := .opened }
  else s

/-- An entry is stored in the reader receive FIFO, or lost when it is full (R63). -/
def storeReader (e : Bool → Entry) (watch : Option Moment) (s : State) : State :=
  if s.reader.rx.full then s.setReader { s.reader with rx := s.reader.rx.lose }
  else afterStore (s.setReader { s.reader with rx := s.reader.rx.store e watch })

/-- The entry is an error-free carriage return. -/
def Entry.isEnd (e : Entry) : Bool := e.char == some 0x0D && !e.flagged

/-- A character from the reader (R63). Nothing is received while a recognised break lasts (R184). -/
def readerCharacter (data : Byte) (parityBit stopBit : Bool) (s : State) : State :=
  if s.reader.rx.breakLow then s
  else
    let e := fun lost => entryOf data parityBit stopBit lost (some s.tracking.position)
    storeReader e (if (e s.reader.rx.lost).isEnd then none else some s.now) s

/-- More than 3 character times of silence inside a message store a gap entry (R64). -/
def readerGap (s : State) : State :=
  if s.reader.silent s.now then storeReader (fun lost => gapOf lost (some s.tracking.position)) none s else s

/-- A break on the reader link (R72, R184; log entries 13 and 14). -/
def breakReader (s : State) : State :=
  if s.reader.rx.breakLow then s
  else
    let t := s.setReader { s.reader with rx := { s.reader.rx with fifo := [], silence := none, breakLow := true },
                                         tx := { s.reader.tx with fifo := [] } }
    let u := t.setCode { t.code with assembler := .idle }
    if s.code.flow = .held then (placeReader xon u).setCode { u.code with flow := .opened } else u

/-! ## The message assembler (R65 to R69) -/

/-- The kinds of entry the assembler tells apart (R65). -/
inductive EntryKind where
  | printable (c : Byte)
  | ending
  | other
  | flagged
  | gap
  deriving DecidableEq, Repr

/-- The kind of an entry (R65). -/
def Entry.entryKind (e : Entry) : EntryKind :=
  match e.char with
  | none => .gap
  | some c => if e.flagged then .flagged else if c = 0x0D then .ending else if printable c then .printable c else .other

/-- The text buffer holds at most 24 characters. -/
def textSize : Nat := 24

/-- What the assembler does with an entry: its next state, and the text of a message completed: none inside for a garbled one
(R66 to R69). -/
def assemble (a : MessageAssembler) (k : EntryKind) : MessageAssembler × Option (Option (List Byte)) :=
  match a, k with
  | .idle, .printable c => (.collecting [c], none)
  | .idle, .flagged => (.discard, some none)
  | .idle, .ending => (.idle, none)
  | .idle, .other => (.idle, none)
  | .idle, .gap => (.idle, none)
  | .collecting t, .printable c =>
    if t.length < textSize then (.collecting (t ++ [c]), none) else (.discard, some none)
  | .collecting t, .ending => (.idle, some (some t))
  | .collecting _, .other => (.discard, some none)
  | .collecting _, .flagged => (.discard, some none)
  | .collecting _, .gap => (.discard, some none)
  | .discard, .ending => (.idle, none)
  | .discard, .printable _ => (.discard, none)
  | .discard, .other => (.discard, none)
  | .discard, .flagged => (.discard, none)
  | .discard, .gap => (.discard, none)

/-- The code unit takes an entry: the assembler acts, and a completed message waits with the entry's stamp (R65 to R69). -/
def takeEntry (e : Entry) (c : CodeUnit) : CodeUnit :=
  let r := assemble c.assembler e.entryKind
  { c with assembler := r.1,
           message := (match r.2 with
             | some text => some { text := text, stamp := e.stamp.getD 0 }
             | none => c.message) }

/-- The next entry of the reader receive FIFO is taken, unless a completed message is being handled (R63, R71). -/
def readerTake (s : State) : State :=
  match s.code.message, s.reader.rx.fifo with
  | none, e :: rest =>
    afterTake ((s.setReader { s.reader with rx := { s.reader.rx with fifo := rest } }).setCode (takeEntry e s.code))
  | _, _ => s

/-! ## Matching (R73 to R77) -/

/-- A pattern character agrees with a code character (R77). -/
def agrees (pattern code : Byte) : Bool :=
  if pattern = 0x3F then printable code
  else if pattern = 0x23 then decide (0x30 ≤ code.toNat ∧ code.toNat ≤ 0x39)
  else pattern == code

/-- A code matches a pattern: the same number of characters, agreeing place by place (R77). -/
def codeMatches : List Byte → List Byte → Bool
  | [], [] => true
  | p :: ps, c :: cs => agrees p c && codeMatches ps cs
  | _, _ => false

/-- The code and the code status a message gives a record of a recipe (R76). -/
def codeOf (pattern : Option (List Byte)) (text : Option (List Byte)) : Option (List Byte) × CodeStatus :=
  match text with
  | none => (none, .garbled)
  | some t =>
    if t = [0x3F] then (none, .noRead)
    else
      match pattern with
      | none => (some t, .notChecked)
      | some q => (some t, if codeMatches q t then .matched else .mismatch)

/-- The code pattern of the recipe of a generation (R76). -/
def patternOf (st : Store) (g : Generation) : Option (List Byte) := (st.recipeOf g).bind Recipe.codePattern

/-- A message matched to a record (R76). -/
def matchRecord (st : Store) (text : Option (List Byte)) (c : CanRecord) : CanRecord :=
  c.readAs st (codeOf (patternOf st c.generation) text).1 (codeOf (patternOf st c.generation) text).2

/-- A stray message is discarded and counted (R75). -/
def strayMessage (s : State) : State := s.setCode { s.code with stray := satInc 65535 s.code.stray }

/-- The oldest WEIGHED record of the queue. -/
def oldestWeighed (q : List CanRecord) : Option CanRecord := q.find? (fun c => c.stage == .weighed)

/-- A message is matched to the oldest WEIGHED record in the reader window at its stamp, the overdue ones before it set to READ
with NOREAD, or it is stray (R73, R74, R75). -/
def matchMessage (m : Message) (s : State) : State :=
  match s.store.layout with
  | none => strayMessage s
  | some L =>
    let t := s.setQueue (markUnread s.store (pastReader L m.stamp) s.tracking.queue)
    match oldestWeighed t.tracking.queue with
    | none => strayMessage t
    | some c =>
      if (L.readerDistance : Int) - L.readerWindow ≤ c.elapsed m.stamp then
        t.setQueue (mapFirst (fun q => q.stage == .weighed) (matchRecord t.store m.text) t.tracking.queue)
      else strayMessage t

/-- The completed message that waits is handled (R73). -/
def handleMessage (s : State) : State :=
  match s.code.message with
  | none => s
  | some m => matchMessage m (s.setCode { s.code with message := none })

/-- READER_CHARACTER_RECEIVED (R63, R70). -/
def execReaderCharacterReceived (data : Byte) (parityBit stopBit : Bool) (s : State) : Result :=
  .next (unlessReset (readerCharacter data parityBit stopBit) s)

/-- READER_GAP_ENTRY (R64, R70). -/
def execReaderGapEntry (s : State) : Result := .next (unlessReset readerGap s)

/-- READER_BREAK (R72, R184). -/
def execReaderBreak (s : State) : Result := .next (unlessReset breakReader s)

/-- READER_ENTRY_TAKEN (R65 to R69, R71). -/
def execReaderEntryTaken (s : State) : Result := .next (unlessReset readerTake s)

/-- MESSAGE_MATCH (R73 to R77). -/
def execMessageMatch (s : State) : Result := .next (unlessReset handleMessage s)

end Sys2Proof.Machine
end

