-- ==== Sys2Proof/Machine/Serial.lean ====
section
/-! DEFINITION. The serial channels: reception, breaks, flow control from the station, the frame assembler, the transmitters and
the error counts (chapter 9). -/

namespace Sys2Proof.Machine

/-- The channel of a master link replaced. -/
def MasterLink.setPort (m : MasterLink) (p : Port) : MasterLink := { m with port := p }

/-- The receiver of a master link replaced. -/
def MasterLink.setRx (m : MasterLink) (rx : Receiver) : MasterLink := { m with port := { m.port with rx := rx } }

/-- The channel `ch`. -/
def State.port (s : State) : Channel → Port
  | .filler => s.links.filler.port
  | .supervisor => s.links.supervisor.port
  | .quality => s.links.quality.port
  | .reader => s.reader

/-- The channel `ch` replaced. -/
def State.setPort (s : State) (ch : Channel) (p : Port) : State :=
  match ch with
  | .filler => s.setLink .filler ((s.link .filler).setPort p)
  | .supervisor => s.setLink .supervisor ((s.link .supervisor).setPort p)
  | .quality => s.setLink .quality ((s.link .quality).setPort p)
  | .reader => s.setReader p

/-! ## Error counts (R192) -/

/-- The named count gains one, saturating. -/
def ErrorCounts.inc (c : ErrorCounts) : CountName → ErrorCounts
  | .characterErrors => { c with characterErrors := satInc 65535 c.characterErrors }
  | .overruns => { c with overruns := satInc 65535 c.overruns }
  | .frameTimeouts => { c with frameTimeouts := satInc 65535 c.frameTimeouts }
  | .checkErrors => { c with checkErrors := satInc 65535 c.checkErrors }

/-- A count of link `l` gains one; LINK_ERROR is raised on that link while its flag is set, and the flag is cleared (R192). -/
def countError (l : Link) (n : CountName) (s : State) : State :=
  let m := s.link l
  let t := s.setLink l { m with counts := m.counts.inc n, errorArmed := false }
  if m.errorArmed then raiseOn l .linkError n.code t else t

/-- The counts that a stored entry moves. Where both move, which of them gains first, and so names LINK_ERROR, is a free
choice (R192; log entry 3). -/
def countEntry (l : Link) (e : Entry) (s : State) : State :=
  match e.badCharacter, e.overrun with
  | false, false => s
  | true, false => countError l .characterErrors s
  | false, true => countError l .overruns s
  | true, true =>
    if s.choice % 2 = 0 then countError l .overruns (countError l .characterErrors s.chosen)
    else countError l .characterErrors (countError l .overruns s.chosen)

/-! ## Reception (R182, R183, R185, R186) -/

/-- The stamp an entry of link `l` holds: the filler link alone keeps one (R182). -/
def stampFor (l : Link) (x : Position) : Option Position := if l = .filler then some x else none

/-- The reception phase after an entry is stored (R185). -/
def nextPhase (ph : RxPhase) (e : Entry) : RxPhase :=
  if e.flagged then .between
  else
    match ph, e.char with
    | _, none => .between
    | .between, some c => if c = 0x02 then .kind else .between
    | .kind, some _ => .length
    | .length, some c => if 120 < c.toNat then .between else if c = 0 then .check else .payload c.toNat
    | .payload n, some _ => if n ≤ 1 then .check else .payload (n - 1)
    | .check, some _ => .between

/-- An entry is stored in the receive FIFO of link `l`, and its counts move; at a full FIFO it is lost, and the phase returns to
BETWEEN (R182, R185, R192). -/
def storeEntry (l : Link) (e : Bool → Entry) (watch : Option Moment) (s : State) : State :=
  let m := s.link l
  if m.port.rx.full then s.setLink l { m.setRx m.port.rx.lose with phase := .between }
  else
    countEntry l (e m.port.rx.lost)
      (s.setLink l { m.setRx (m.port.rx.store e watch) with phase := nextPhase m.phase (e m.port.rx.lost) })

/-- How long an Xoff pauses the transmitter (R186). -/
def pauseTime : Moment := ms 2000

/-- A flow-control character between frames pauses or releases the transmitter, and is not stored (R185, R186; log
entry 12). -/
def flowControl (l : Link) (pause : Option Moment) (s : State) : State :=
  let m := s.link l
  s.setLink l { m.setRx { m.port.rx with silence := none } with pause := pause }

/-- The character stands between frames and is free of error, the overrun flag it would be stored with included (R185). -/
def betweenFrames (m : MasterLink) (data : Byte) (parityBit stopBit : Bool) : Bool :=
  m.phase == .between && !(entryOf data parityBit stopBit (m.port.rx.lost && !m.port.rx.full) none).flagged

/-- A character completes on the line of a master link (R182, R185). Nothing is received while a recognised break lasts
(R184). -/
def receiveCharacter (l : Link) (data : Byte) (parityBit stopBit : Bool) (s : State) : State :=
  let m := s.link l
  if m.port.rx.breakLow then s
  else if betweenFrames m data parityBit stopBit && data == xoff then flowControl l (some (s.now + pauseTime)) s
  else if betweenFrames m data parityBit stopBit && data == xon then flowControl l none s
  else storeEntry l (fun lost => entryOf data parityBit stopBit lost (stampFor l s.tracking.position)) (some s.now) s

/-- More than 3 character times of silence after a stored character store a gap entry (R183). -/
def receiveGap (l : Link) (s : State) : State :=
  if (s.link l).port.silent s.now then
    storeEntry l (fun lost => gapOf lost (stampFor l s.tracking.position)) none s
  else s

/-- A link after a recognised break (R184, R204; log entry 13). -/
def MasterLink.broken (m : MasterLink) : MasterLink :=
  { port := { m.port with rx := { m.port.rx with fifo := [], silence := none, breakLow := true },
                          tx := { m.port.tx with fifo := [] } }
    phase := .between, pause := none, assembler := .hunt, request := none, held := none, counts := ErrorCounts.zero,
    errorArmed := true }

/-- A break on a master link, recognised once (R184). -/
def breakLink (l : Link) (s : State) : State :=
  if (s.link l).port.rx.breakLow then s else s.setLink l (s.link l).broken

/-- The receive line of a channel goes high after a recognised break (R184). -/
def endBreak (ch : Channel) (s : State) : State :=
  s.setPort ch { s.port ch with rx := { (s.port ch).rx with breakLow := false } }

/-- A moment held in an option has been reached. -/
def reached (m : Option Moment) (now : Moment) : Bool :=
  match m with
  | some e => decide (e ≤ now)
  | none => false

/-- The pause of a transmitter expires (R186). -/
def expirePause (l : Link) (s : State) : State :=
  if reached (s.link l).pause s.now then s.setLink l { s.link l with pause := none } else s

/-! ## The frame assembler (R187, R188) -/

/-- What the assembler does with an entry. -/
inductive AssemblerAct where
  /-- It goes on in a state. -/
  | goOn (a : FrameAssembler)
  /-- It abandons or discards the frame, and a count gains one. -/
  | drop (n : CountName)
  /-- It hands a complete good frame to the request decoder. -/
  | complete (r : Request)
  deriving DecidableEq, Repr

/-- The assembler's act on an error-free character (R187, R188). -/
def assembleCharacter (a : FrameAssembler) (c : Byte) (stamp : Option Position) : AssemblerAct :=
  match a with
  | .hunt => .goOn (if c = 0x02 then .kind stamp else .hunt)
  | .kind st => .goOn (.length st c)
  | .length st k =>
    if 120 < c.toNat then .drop .checkErrors
    else if c = 0 then .goOn (.check st k c []) else .goOn (.payload st k c [])
  | .payload st k n p =>
    if n.toNat ≤ p.length + 1 then .goOn (.check st k n (p ++ [c])) else .goOn (.payload st k n (p ++ [c]))
  | .check st k n p =>
    if sumBytes (k :: n :: (p ++ [c])) = 0 then .complete { kind := k, payload := p, stamp := st }
    else .drop .checkErrors

/-- The assembler's act on an entry (R187). -/
def assembleEntry (a : FrameAssembler) (e : Entry) : AssemblerAct :=
  match e.char with
  | none => if a = .hunt then .goOn .hunt else .drop .frameTimeouts
  | some c => if e.flagged then .goOn .hunt else assembleCharacter a c e.stamp

/-- The act is carried out on the link (R187, R188, R195). -/
def actAssembler (l : Link) (act : AssemblerAct) (s : State) : State :=
  match act with
  | .goOn a => s.setLink l { s.link l with assembler := a }
  | .drop n => countError l n (s.setLink l { s.link l with assembler := .hunt })
  | .complete r => s.setLink l { s.link l with assembler := .hunt, request := some r }

/-- The assembler takes entries while no answer is held and no request is in progress (R187, R190, R195). -/
def MasterLink.takes (m : MasterLink) : Bool := m.held.isNone && m.request.isNone

/-- The assembler takes the next entry of the receive FIFO (R187). -/
def takeFrameEntry (l : Link) (s : State) : State :=
  let m := s.link l
  match m.port.rx.fifo with
  | [] => s
  | e :: rest =>
    if m.takes then
      actAssembler l (assembleEntry m.assembler e) (s.setLink l (m.setRx { m.port.rx with fifo := rest }))
    else s

/-! ## Answers and the transmitters (R190, R191) -/

/-- A held answer that the transmit FIFO now has room for. -/
def MasterLink.placeable (m : MasterLink) : Option (List Byte) :=
  match m.held with
  | some a => if m.port.tx.roomFor a then some a else none
  | none => none

/-- A held answer is placed whole once there is room for it (R190). -/
def placeHeld (l : Link) (s : State) : State :=
  match (s.link l).placeable with
  | some a => s.setLink l ({ s.link l with held := none }.place a)
  | none => s

/-- The transmitter of a channel is RUNNING; the reader link has no pause (R191). -/
def State.running (s : State) : Channel → Bool
  | .filler => s.links.filler.pause.isNone
  | .supervisor => s.links.supervisor.pause.isNone
  | .quality => s.links.quality.pause.isNone
  | .reader => true

/-- No character is on the transmit line: the last one begun has lasted a character time (R181, R191). -/
def Port.lineFree (p : Port) (now : Moment) : Bool :=
  match p.tx.sending with
  | none => true
  | some c => lastsHalfBits p.straps 22 (now - c.began)

/-- The next character of a transmit FIFO begins on the line (R191). -/
def sendCharacter (ch : Channel) (s : State) : State :=
  let p := s.port ch
  match p.tx.fifo with
  | [] => s
  | c :: rest =>
    if s.running ch && p.lineFree s.now then
      s.setPort ch { p with tx := { fifo := rest, sending := some { char := c, began := s.now } } }
    else s

/-! ## LINK STATS (R193) and frames of an unknown kind (R197) -/

/-- The bytes of the four counts and the transmitter's pause state. -/
def statsBytes (m : MasterLink) : List Byte :=
  u16 m.counts.characterErrors ++ u16 m.counts.overruns ++ u16 m.counts.frameTimeouts ++ u16 m.counts.checkErrors ++
    flagByte m.pause.isSome

/-- LINK STATS, by the link interface (R193). -/
def ownLinkStats (l : Link) (p : List Byte) (s : State) : Served :=
  match flagAt p 0 with
  | none => refuse .range s
  | some clear =>
    let m := s.link l
    ({ status := .ok, payload := statsBytes m },
      s.setLink l { m with counts := if clear then ErrorCounts.zero else m.counts, errorArmed := true })

/-- A good frame of an unknown kind is answered UNKNOWN (R197). -/
def serveUnknown (l : Link) (kind : Byte) (p : List Byte) (s : State) : State :=
  if (Kind.ofCode kind).isSome || !(s.link l).admits kind p none then s
  else answer l kind { status := .unknown, payload := [] } s

/-- LINK STATS with its clear flag clear, or with a payload that is refused (R193). -/
def execLinkStats (l : Link) (p : List Byte) (s : State) : Result :=
  .next (serve .linkStats l p none (ownLinkStats l p) s)

/-- LINK STATS with its clear flag set (R193). -/
def execLinkStatsClear (l : Link) (s : State) : Result := .next (serve .linkStats l [1] none (ownLinkStats l [1]) s)

/-- UNKNOWN_KIND (R197). -/
def execUnknownKind (l : Link) (kind : Byte) (p : List Byte) (s : State) : Result :=
  .next (unlessReset (serveUnknown l kind p) s)

/-- CHARACTER_RECEIVED (R182, R185). -/
def execCharacterReceived (l : Link) (data : Byte) (parityBit stopBit : Bool) (s : State) : Result :=
  .next (unlessReset (receiveCharacter l data parityBit stopBit) s)

/-- GAP_ENTRY (R183). -/
def execGapEntry (l : Link) (s : State) : Result := .next (unlessReset (receiveGap l) s)

/-- BREAK (R184). -/
def execLinkBreak (l : Link) (s : State) : Result := .next (unlessReset (breakLink l) s)

/-- BREAK_END (R184). -/
def execBreakEnd (ch : Channel) (s : State) : Result := .next (unlessReset (endBreak ch) s)

/-- PAUSE_EXPIRY (R186). -/
def execPauseExpiry (l : Link) (s : State) : Result := .next (unlessReset (expirePause l) s)

/-- FRAME_ENTRY_TAKEN (R187, R188). -/
def execFrameEntryTaken (l : Link) (s : State) : Result := .next (unlessReset (takeFrameEntry l) s)

/-- HELD_ANSWER_PLACED (R190). -/
def execHeldAnswerPlaced (l : Link) (s : State) : Result := .next (unlessReset (placeHeld l) s)

/-- CHARACTER_SENT (R191). -/
def execCharacterSent (ch : Channel) (s : State) : Result := .next (unlessReset (sendCharacter ch) s)

end Sys2Proof.Machine
end

