-- ==== Sys2Proof/Machine/Attend.lean ====
section
/-! DEFINITION. CAUSE TAKE, CAUSE ENABLE, the attention hold, and STATUS READ (chapter 11, section 10.5). -/

namespace Sys2Proof.Machine

/-- The highest pending cause, in the order of R208. -/
def Attention.highest (a : Attention) : Option PendingCause :=
  Cause.inOrder.findSome? (fun c => a.pending.find? (fun q => q.cause == c))

/-- A cause leaves the pending set; the line is released where no enabled cause remains (R208). -/
def Attention.without (a : Attention) (c : Cause) : Attention :=
  { a with pending := a.pending.filter (fun q => q.cause != c) }.releaseIfNone

/-- CAUSE TAKE, by the attention unit (R208). -/
def ownCauseTake (l : Link) (s : State) : Served :=
  match (s.att l).highest with
  | none => ({ status := .ok, payload := u8 0 ++ s32 0 ++ flagByte false ++ u8 0 }, s)
  | some q =>
    let b := (s.att l).without q.cause
    ({ status := .ok,
       payload := u8 q.cause.code ++ s32 q.detail ++ flagByte (decide (q.cause ∈ (s.att l).enabled)) ++
         u8 b.pending.length },
      s.setAtt l b)

/-- CAUSE ENABLE, by the attention unit (R210). R213 gives no byte order for a mask: that the enable set is read and written most
significant byte first is the model's choice (log entry 28). -/
def ownCauseEnable (l : Link) (p : List Byte) (s : State) : Served :=
  if 2 ^ 13 ≤ u16At p 0 then refuse .range s
  else
    let b := { s.att l with enabled := membersOf Cause.inOrder (u16At p 0) }.releaseIfNone
    ({ status := .ok, payload := u16 (maskOf Cause.inOrder b.enabled) ++ u8 b.pending.length }, s.setAtt l b)

/-- The hold expiry of an attention line is reached: the line is released (R209). -/
def expireHold (l : Link) (s : State) : State :=
  if reached (s.att l).hold s.now then s.setAtt l { s.att l with hold := none } else s

/-! ## STATUS READ (R205) -/

/-- The capture in progress, as its kind code; 0 for none. -/
def captureNow (c : Capture) : Nat := if c.inProgress then c.kind.code else 0

/-- The state controller's items. R214 lists no code for the line stop output: the flag byte, 1 for asserted and 0 for released,
is the model's choice (log entry 25). -/
def controlItems (c : Control) : List Byte :=
  u8 c.state.code ++ flagByte c.lineStop ++ u16 c.errors ++ u8 ((c.lastCommand.map LastCommand.number).getD 0) ++
    u8 ((c.lastCommand.map (fun x => outcomeCode x.taken)).getD 0)

/-- The settings store's items. -/
def storeItems (st : Store) : List Byte :=
  flagByte st.layout.isSome ++ flagByte st.calibration.isSome ++ flagByte st.current.isSome ++
    withPresence u8 (st.current.map (fun h => h.generation.toNat)) ++
    withPresence u8 (st.previous.map (fun h => h.generation.toNat)) ++ u8 ((st.previous.map HeldRecipe.count).getD 0)

/-- The tracking unit's items. -/
def trackingItems (t : Tracking) : List Byte :=
  u24 t.position.toNat ++ u8 t.queue.length ++ u16 t.serial.toNat ++ u8 t.slip

/-- The weigh unit's items. R214 lists no code for the cell fault condition: the flag byte, 1 for present and 0 for absent, is
the model's choice (log entry 25). -/
def weighItems (w : WeighUnit) : List Byte :=
  u8 w.platform.code ++ u8 w.zeroState.code ++ flagByte w.cellFault ++ u24 (w.fz.getD 0) ++ u24 (w.latest.getD 0) ++
    u8 (captureNow w.capture)

/-- The verdict and gate unit's items. -/
def gateItems (g : GateUnit) : List Byte :=
  flagByte g.drive.isSome ++ flagByte g.confirmLevel ++ u8 g.windows.length ++ u8 g.unconfirmed

/-- The can list's, the dose unit's and the code unit's items. -/
def listDoseCodeItems (s : State) : List Byte :=
  u16 s.canList.unread ++ u16 s.canList.level ++ s16 s.dose.lineOffset ++ u8 s.dose.freeze.mask ++ u8 s.dose.centering ++
    u16 s.code.stray ++ u8 s.code.flow.code

/-- The attention unit's items for the sending link. R214 lists no code for the attention line: the flag byte, 1 for asserted and
0 for released, is the model's choice (log entry 25). -/
def attentionItems (a : Attention) : List Byte := u8 a.pending.length ++ flagByte a.hold.isSome

/-- The 48 bytes of a STATUS READ answer (R205, section 12.2). -/
def statusBytes (l : Link) (s : State) : List Byte :=
  controlItems s.control ++ storeItems s.store ++ trackingItems s.tracking ++ weighItems s.weigh ++ gateItems s.gate ++
    listDoseCodeItems s ++ attentionItems (s.att l)

/-- STATUS READ, by the request decoder (R205). -/
def ownStatusRead (l : Link) (s : State) : Served := ({ status := .ok, payload := statusBytes l s }, s)

/-- CAUSE TAKE (R208). -/
def execCauseTake (l : Link) (p : List Byte) (s : State) : Result := .next (serve .causeTake l p none (ownCauseTake l) s)

/-- CAUSE ENABLE (R210). -/
def execCauseEnable (l : Link) (p : List Byte) (s : State) : Result :=
  .next (serve .causeEnable l p none (ownCauseEnable l p) s)

/-- ATTENTION_HOLD_EXPIRY (R209). -/
def execAttentionHoldExpiry (l : Link) (s : State) : Result := .next (unlessReset (expireHold l) s)

/-- STATUS READ (R205). -/
def execStatusRead (l : Link) (p : List Byte) (s : State) : Result :=
  .next (serve .statusRead l p none (ownStatusRead l) s)

end Sys2Proof.Machine
end

