-- ==== Sys2Proof/Machine/Power.lean ====
section
/-! DEFINITION. Power-on, the reset pin, and the levels of the output pins (R34, R62, R80, R97, R127, R146, R168, R180, R194,
R204, R211, R215). -/

namespace Sys2Proof.Machine

/-- The three attention lines' holds at a reset. -/
def everyLink {α : Type} (x : α) : PerLink α := { filler := x, supervisor := x, quality := x }

/-- The strap levels the channels hold now. -/
def State.straps (s : State) : Straps :=
  { filler := s.links.filler.port.straps, supervisor := s.links.supervisor.port.straps,
    quality := s.links.quality.port.straps, reader := s.reader.straps }

/-- Every block at its reset values, at the strap levels given, with the reset pin held or released. The clock, the free
choices made, the levels of the input pins and the queue of waiting commands are kept. An active confirm input begins its
qualification, and each attention line is asserted by POWER_UP, once the pin is released (R88, R209, R211; log entry 15). -/
def resetBlocks (straps : Straps) (held : Bool) (s : State) : State :=
  { s with
    resetHeld := held
    tracking := Tracking.reset, weigh := WeighUnit.reset, code := CodeUnit.reset
    gate := { GateUnit.reset with qualify := if !held && s.pins.confirm then some s.now else none }
    canList := CanList.reset, dose := DoseUnit.reset, store := Store.reset, control := Control.reset s.now
    links := { filler := MasterLink.reset straps.filler, supervisor := MasterLink.reset straps.supervisor,
               quality := MasterLink.reset straps.quality }
    reader := Port.reset straps.reader
    attention := everyLink (Attention.powerUp (if held then none else some (s.now + attentionHold))) }

/-- The reset pin goes active (R180). -/
def assertReset (s : State) : State := if s.resetHeld then s else resetBlocks s.straps true s

/-- The reset pin is released: the straps are sampled and POWER_UP is raised (R181, R211). -/
def releaseReset (straps : Straps) (s : State) : State := if s.resetHeld then resetBlocks straps false s else s

/-- POWER_ON (R180, R211). With the reset pin held the attention lines stay released until its release (R209). -/
def execPowerOn (straps : Straps) (s : State) : Result := .next (resetBlocks straps s.resetHeld s)

/-- RESET_PIN_ASSERT (R180). -/
def execResetPinAssert (s : State) : Result := .next (assertReset s)

/-- RESET_PIN_RELEASE (R211). -/
def execResetPinRelease (straps : Straps) (s : State) : Result := .next (releaseReset straps s)

/-! ## Output pins (R215; log entry 23) -/

/-- REJECT is high while the reject drive is ON. -/
def State.pinReject (s : State) : Bool := s.gate.drive.isSome && !s.resetHeld

/-- LSTOP is high while the line stop is asserted. -/
def State.pinLineStop (s : State) : Bool := s.control.lineStop && !s.resetHeld

/-- FATT_N, SATT_N and QATT_N are low while the attention line of the link is asserted. -/
def State.pinAttention (s : State) (l : Link) : Bool := !((s.att l).hold.isSome && !s.resetHeld)

/-- The transmit line of a channel: the bit of the character on it, or high at rest (R181, R191). -/
def State.pinTransmit (s : State) (ch : Channel) : Bool :=
  match (s.port ch).tx.sending with
  | none => true
  | some c =>
    s.resetHeld || (characterBits c.char).getD ((s.now - c.began) * linkSpeed (s.port ch).straps / 20000000) true

end Sys2Proof.Machine
end

