-- ==== Sys2Proof/Machine/Dispatch.lean ====
section
/-! DEFINITION. One arm for each command of the table. -/

namespace Sys2Proof.Machine

def exec (i : Instr) (s : State) : Host.Outcome State Fault Refusal :=
  match i with
  | .fillReport l p stamp => Sys2Proof.Machine.execFillReport l p stamp s
  | .doseQuery l p => Sys2Proof.Machine.execDoseQuery l p s
  | .valveHold l p => Sys2Proof.Machine.execValveHold l p s
  | .valveFree l p => Sys2Proof.Machine.execValveFree l p s
  | .valveAccept l p => Sys2Proof.Machine.execValveAccept l p s
  | .baseSet l p => Sys2Proof.Machine.execBaseSet l p s
  | .valveView l p => Sys2Proof.Machine.execValveView l p s
  | .valveViewClear l v => Sys2Proof.Machine.execValveViewClear l v s
  | .layoutLoad l p => Sys2Proof.Machine.execLayoutLoad l p s
  | .calLoad l p => Sys2Proof.Machine.execCalLoad l p s
  | .recipeLoad l p => Sys2Proof.Machine.execRecipeLoad l p s
  | .recordRead l p => Sys2Proof.Machine.execRecordRead l p s
  | .start l p => Sys2Proof.Machine.execStart l p s
  | .stop l p => Sys2Proof.Machine.execStop l p s
  | .clear l p => Sys2Proof.Machine.execClear l p s
  | .flush l p => Sys2Proof.Machine.execFlush l p s
  | .restart l p => Sys2Proof.Machine.execRestart l p s
  | .freeze l p => Sys2Proof.Machine.execFreeze l p s
  | .thaw l p => Sys2Proof.Machine.execThaw l p s
  | .thawAll l p => Sys2Proof.Machine.execThawAll l p s
  | .zeroCapture l p => Sys2Proof.Machine.execZeroCapture l p s
  | .spanCapture l p => Sys2Proof.Machine.execSpanCapture l p s
  | .captureResult l p => Sys2Proof.Machine.execCaptureResult l p s
  | .canListTake l p => Sys2Proof.Machine.execCanListTake l p s
  | .listLevelSet l p => Sys2Proof.Machine.execListLevelSet l p s
  | .queueView l p => Sys2Proof.Machine.execQueueView l p s
  | .statusRead l p => Sys2Proof.Machine.execStatusRead l p s
  | .causeTake l p => Sys2Proof.Machine.execCauseTake l p s
  | .causeEnable l p => Sys2Proof.Machine.execCauseEnable l p s
  | .linkStats l p => Sys2Proof.Machine.execLinkStats l p s
  | .linkStatsClear l => Sys2Proof.Machine.execLinkStatsClear l s
  | .unknownKind l kind p => Sys2Proof.Machine.execUnknownKind l kind p s
  | .encoderPulse => Sys2Proof.Machine.execEncoderPulse s
  | .eyeBlockingEdge => Sys2Proof.Machine.execEyeBlockingEdge s
  | .eyeClearingEdge => Sys2Proof.Machine.execEyeClearingEdge s
  | .conversionComplete => Sys2Proof.Machine.execConversionComplete s
  | .conversionOverflow => Sys2Proof.Machine.execConversionOverflow s
  | .confirmInputActive => Sys2Proof.Machine.execConfirmInputActive s
  | .confirmQualified => Sys2Proof.Machine.execConfirmQualified s
  | .confirmInputInactive => Sys2Proof.Machine.execConfirmInputInactive s
  | .confirmWindowExpiry => Sys2Proof.Machine.execConfirmWindowExpiry s
  | .rejectPulseEnd => Sys2Proof.Machine.execRejectPulseEnd s
  | .lcmdFallingEdge => Sys2Proof.Machine.execLcmdFallingEdge s
  | .lcmdRisingEdge => Sys2Proof.Machine.execLcmdRisingEdge s
  | .lcmdSpellTimeout => Sys2Proof.Machine.execLcmdSpellTimeout s
  | .lineClear => Sys2Proof.Machine.execLineClear s
  | .lineFreeze => Sys2Proof.Machine.execLineFreeze s
  | .lineThaw => Sys2Proof.Machine.execLineThaw s
  | .lineFlush => Sys2Proof.Machine.execLineFlush s
  | .lineZeroCapture => Sys2Proof.Machine.execLineZeroCapture s
  | .lineCommandBadCount => Sys2Proof.Machine.execLineCommandBadCount s
  | .characterReceived l data parityBit stopBit => Sys2Proof.Machine.execCharacterReceived l data parityBit stopBit s
  | .gapEntry l => Sys2Proof.Machine.execGapEntry l s
  | .linkBreak l => Sys2Proof.Machine.execLinkBreak l s
  | .pauseExpiry l => Sys2Proof.Machine.execPauseExpiry l s
  | .frameEntryTaken l => Sys2Proof.Machine.execFrameEntryTaken l s
  | .heldAnswerPlaced l => Sys2Proof.Machine.execHeldAnswerPlaced l s
  | .characterSent ch => Sys2Proof.Machine.execCharacterSent ch s
  | .readerCharacterReceived data parityBit stopBit => Sys2Proof.Machine.execReaderCharacterReceived data parityBit stopBit s
  | .readerGapEntry => Sys2Proof.Machine.execReaderGapEntry s
  | .readerBreak => Sys2Proof.Machine.execReaderBreak s
  | .readerEntryTaken => Sys2Proof.Machine.execReaderEntryTaken s
  | .messageMatch => Sys2Proof.Machine.execMessageMatch s
  | .attentionHoldExpiry l => Sys2Proof.Machine.execAttentionHoldExpiry l s
  | .powerOn straps => Sys2Proof.Machine.execPowerOn straps s
  | .resetPinAssert => Sys2Proof.Machine.execResetPinAssert s
  | .resetPinRelease straps => Sys2Proof.Machine.execResetPinRelease straps s
  | .conversionStart => Sys2Proof.Machine.execConversionStart s
  | .breakEnd ch => Sys2Proof.Machine.execBreakEnd ch s

end Sys2Proof.Machine
end

