-- ==== Sys2Proof/Machine/Idle.lean ====
section
/-! DEFINITION. What the part does of itself while no command waits: its own work that is due, or a tick of its clock (log
entries 2, 4, 7, 26 and 27). -/

namespace Sys2Proof.Machine

/-- A command, where it is due. -/
def dueIf (b : Bool) (i : Instr) : List Instr := if b then [i] else []

/-- A transmitter can begin its next character (R191). -/
def sendDue (s : State) (ch : Channel) : Bool :=
  !(s.port ch).tx.fifo.isEmpty && s.running ch && (s.port ch).lineFree s.now

/-- The request in progress of a link that its owning block can take (R195). -/
def requestDue (l : Link) (m : MasterLink) : List Instr :=
  match m.request with
  | some r => dueIf m.held.isNone (requestCommand l r.kind r.payload r.stamp)
  | none => []

/-- The channel of a master link. -/
def Link.channel : Link → Channel
  | .filler => .filler
  | .supervisor => .supervisor
  | .quality => .quality

/-- The work due on a master link. -/
def linkDue (s : State) (l : Link) : List Instr :=
  let m := s.link l
  requestDue l m ++ dueIf m.placeable.isSome (.heldAnswerPlaced l) ++
    dueIf (m.takes && !m.port.rx.fifo.isEmpty) (.frameEntryTaken l) ++
    dueIf (sendDue s (Link.channel l)) (.characterSent (Link.channel l)) ++
    dueIf (reached m.pause s.now) (.pauseExpiry l) ++ dueIf (reached (s.att l).hold s.now) (.attentionHoldExpiry l)

/-- The work due on the reader link and in the code unit. -/
def readerDue (s : State) : List Instr :=
  dueIf s.code.message.isSome .messageMatch ++
    dueIf (s.code.message.isNone && !s.reader.rx.fifo.isEmpty) .readerEntryTaken ++
    dueIf (sendDue s .reader) (.characterSent .reader)

/-- The times of the gate that have been reached. -/
def gateDue (s : State) : List Instr :=
  dueIf (qualifyDue s) .confirmQualified ++ dueIf (windowDue s) .confirmWindowExpiry ++
    dueIf (pulseEndDue s) .rejectPulseEnd

/-- The line command that a count ends as (R179). -/
def lineCommandOf (n : Nat) : Instr :=
  match n with
  | 1 => .lineClear
  | 2 => .lineFreeze
  | 3 => .lineThaw
  | 4 => .lineFlush
  | 5 => .lineZeroCapture
  | _ => .lineCommandBadCount

/-- The bound of the line command decoder's spell timer that has been reached. -/
def decoderDue (s : State) : List Instr :=
  (match commandEnd s with
    | some n => [lineCommandOf n]
    | none => []) ++ dueIf (lowOverrun s || recovered s) .lcmdSpellTimeout

/-- All work of the part's own that is due. While the reset pin is held there is none. -/
def dueNow (s : State) : List Instr :=
  if s.resetHeld then []
  else
    linkDue s .filler ++ linkDue s .supervisor ++ linkDue s .quality ++ readerDue s ++ gateDue s ++ decoderDue s

/-- The member at a place of a list that holds `x` and then `rest`, the place read modulo the length. -/
def pickFrom {α : Type} (x : α) (rest : List α) (place : Nat) : α := (x :: rest).getD (place % (rest.length + 1)) x

/-- The period counter counts: a conversion runs, or its starting edge is awaited (R39, R40). -/
def counting (s : State) : Bool := s.weigh.conversion != .stopped && !s.resetHeld

/-- One tick of the reference clock. The period counter advances; the tick that would take it past 65,535 makes the overflow
due instead (R39, R40). That this overflow, with the CELL_FAULT it may raise, goes before a hold expiry and all else that falls at
the same tick, where R212 leaves the order open, is the model's choice (log entry 27). -/
def tick (s : State) : State :=
  if counting s then
    if periodTop ≤ s.weigh.period then { s with now := s.now + 1, pending := [.conversionOverflow] }
    else { s with now := s.now + 1, weigh := { s.weigh with period := s.weigh.period + 1 } }
  else { s with now := s.now + 1 }

/-- What the part does while no command waits. Work of its own that is due is put in the queue, one piece at a time, a free
choice among several; with none due, the reference clock ticks. -/
def idle (s : State) : State :=
  match dueNow s with
  | [] => tick s
  | [i] => { s with pending := [i] }
  | i :: rest => { s.chosen with pending := [pickFrom i rest s.choice] }

end Sys2Proof.Machine
end

