-- ==== Sys2Proof/WellFormed.lean ====
section
/-! DEFINITION. Which commands can be sent: what the frame of a request and the rows of the table allow. -/

namespace Sys2Proof

/-- A payload has at most 120 characters (section 9.4). -/
def payloadFits (p : List Byte) : Bool := decide (p.length ≤ 120)

/-- Well-formed commands. A payload fits its frame; a FILL REPORT of a link that keeps no stamp carries the stamp 0 (R182); a
VALVE VIEW or LINK STATS whose clear flag is 1 is written as the row that clears; an unknown kind is none of the catalogue's
(R197). -/
def Instr.wellFormed : Instr → Bool
  | .fillReport l p st => payloadFits p && (l == .filler || st == 0)
  | .doseQuery _ p => payloadFits p
  | .valveHold _ p => payloadFits p
  | .valveFree _ p => payloadFits p
  | .valveAccept _ p => payloadFits p
  | .baseSet _ p => payloadFits p
  | .valveView _ p => payloadFits p && (p.length != 2 || p.getD 1 0 != 1)
  | .valveViewClear _ _ => true
  | .layoutLoad _ p => payloadFits p
  | .calLoad _ p => payloadFits p
  | .recipeLoad _ p => payloadFits p
  | .recordRead _ p => payloadFits p
  | .start _ p => payloadFits p
  | .stop _ p => payloadFits p
  | .clear _ p => payloadFits p
  | .flush _ p => payloadFits p
  | .restart _ p => payloadFits p
  | .freeze _ p => payloadFits p
  | .thaw _ p => payloadFits p
  | .thawAll _ p => payloadFits p
  | .zeroCapture _ p => payloadFits p
  | .spanCapture _ p => payloadFits p
  | .captureResult _ p => payloadFits p
  | .canListTake _ p => payloadFits p
  | .listLevelSet _ p => payloadFits p
  | .queueView _ p => payloadFits p
  | .statusRead _ p => payloadFits p
  | .causeTake _ p => payloadFits p
  | .causeEnable _ p => payloadFits p
  | .linkStats _ p => payloadFits p && p != [1]
  | .linkStatsClear _ => true
  | .unknownKind _ kind p => payloadFits p && (Kind.ofCode kind).isNone
  | .encoderPulse => true
  | .eyeBlockingEdge => true
  | .eyeClearingEdge => true
  | .conversionComplete => true
  | .conversionOverflow => true
  | .confirmInputActive => true
  | .confirmQualified => true
  | .confirmInputInactive => true
  | .confirmWindowExpiry => true
  | .rejectPulseEnd => true
  | .lcmdFallingEdge => true
  | .lcmdRisingEdge => true
  | .lcmdSpellTimeout => true
  | .lineClear => true
  | .lineFreeze => true
  | .lineThaw => true
  | .lineFlush => true
  | .lineZeroCapture => true
  | .lineCommandBadCount => true
  | .characterReceived _ _ _ _ => true
  | .gapEntry _ => true
  | .linkBreak _ => true
  | .pauseExpiry _ => true
  | .frameEntryTaken _ => true
  | .heldAnswerPlaced _ => true
  | .characterSent _ => true
  | .readerCharacterReceived _ _ _ => true
  | .readerGapEntry => true
  | .readerBreak => true
  | .readerEntryTaken => true
  | .messageMatch => true
  | .attentionHoldExpiry _ => true
  | .powerOn _ => true
  | .resetPinAssert => true
  | .resetPinRelease _ => true
  | .conversionStart => true
  | .breakEnd _ => true

end Sys2Proof
end

