-- ==== Sys2Proof/Safety.lean ====
section
/-! DEFINITION. What a safe state and a safe run are: the bounds and agreements that the manual says always hold, and which
link a command belongs to. -/

namespace Sys2Proof

/-! ## Which commands touch what -/

/-- The commands that reset the part (00_scope.md, "Reset"). -/
def Instr.resets : Instr → Bool
  | .powerOn _ => true
  | .resetPinAssert => true
  | .resetPinRelease _ => true
  | _ => false

/-- The master link of a channel. -/
def masterOf : Channel → Option Link
  | .filler => some .filler
  | .supervisor => some .supervisor
  | .quality => some .quality
  | .reader => none

/-- The master link a command belongs to: the link of a request, or of an event or a step on one link. -/
def Instr.link? (i : Instr) : Option Link :=
  match i with
  | .characterReceived l _ _ _ => some l
  | .gapEntry l => some l
  | .linkBreak l => some l
  | .pauseExpiry l => some l
  | .frameEntryTaken l => some l
  | .heldAnswerPlaced l => some l
  | .characterSent ch => masterOf ch
  | .breakEnd ch => masterOf ch
  | other => other.frame?.map RequestFrame.link

end Sys2Proof

namespace Sys2Proof.Machine

/-! ## Agreements that every step keeps -/

/-- The line stop output is asserted if and only if the operating state is HALT (R173). -/
def State.lineStopAgrees (s : State) : Prop := s.control.lineStop = true ↔ s.control.state = .halt

/-- The attention line of a link is asserted only while its pending set holds an enabled cause (R209). -/
def Attention.backed (a : Attention) : Prop := a.hold ≠ none → a.anyEnabled = true

/-- The pending set of a link stands in priority order and holds each cause at most once (R207, R208). -/
def Attention.ordered (a : Attention) : Prop := a.pending.Pairwise (fun p q => p.cause.code < q.cause.code)

/-- Every attention line is backed, and every pending set ordered (R207 to R209). -/
def State.attentionAgrees (s : State) : Prop := ∀ l : Link, (s.att l).backed ∧ (s.att l).ordered

/-- Both FIFOs of a master link hold at most 128 (chapter 9). -/
def MasterLink.withinCapacity (m : MasterLink) : Prop := m.port.rx.fifo.length ≤ 128 ∧ m.port.tx.fifo.length ≤ 128

/-- The dwell buffer of a weighing in progress (R45); empty while there is none. -/
def Platform.buffer : Platform → List Int
  | .dwell w => w.buffer
  | .idle => []
  | .empty => []
  | .waitClear => []

/-- The text buffer of the message assembler (R65); empty outside COLLECTING. -/
def MessageAssembler.text : MessageAssembler → List Byte
  | .collecting t => t
  | .idle => []
  | .discard => []

/-- These hold no more than their capacities: the transit queue 192 records (R6), the dwell buffer 24 weights (R45), the text
buffer and the text of a completed message 24 characters (R65), the open windows 32 (R89), the ring 256 summaries with no more
unread than it holds (R94), each net window 8 nets (R112), the receive FIFOs and the transmit FIFOs of the master links 128
(R63, R182, R190). The reader link's transmit FIFO is left out (log entry 18). -/
def State.withinCapacity (s : State) : Prop :=
  s.tracking.queue.length ≤ 192 ∧ s.weigh.platform.buffer.length ≤ 24 ∧ s.code.assembler.text.length ≤ 24 ∧
    (∀ m t, s.code.message = some m → m.text = some t → t.length ≤ 24) ∧ s.gate.windows.length ≤ 32 ∧
    s.canList.ring.length ≤ 256 ∧ s.canList.unread ≤ s.canList.ring.length ∧
    (∀ e ∈ s.dose.valves, e.netWindow.length ≤ 8) ∧ (∀ l : Link, (s.link l).withinCapacity) ∧
    s.reader.rx.fifo.length ≤ 128

/-- A_lim of the current recipe; 0 where no recipe is held (R98). -/
def State.accBound (s : State) : Int := (s.recipe.map accLimit).getD 0

/-- The line limit of the current recipe; 0 where no recipe is held (R100). -/
def State.lineBound (s : State) : Int := (s.recipe.map (fun r => (r.lineLimit : Int))).getD 0

/-- The valve table has its 64 entries, and the valve count does not exceed them. -/
def State.tableWhole (s : State) : Prop := s.dose.valves.length = 64 ∧ s.valveCount ≤ 64

/-- The valve table as chapters 5 and 6 keep it: 64 entries; those in use are not UNUSED and those above the valve count hold
the values after reset (R128, R131); every accumulator lies within A_lim (R98), and the line offset within the line limit
(R100). -/
def State.doseBounded (s : State) : Prop :=
  s.tableWhole ∧ (∀ e ∈ s.inUse, e.state ≠ .unused) ∧ (∀ e ∈ s.dose.valves.drop s.valveCount, e = Valve.reset) ∧
    (∀ e ∈ s.dose.valves, -s.accBound ≤ e.accumulator ∧ e.accumulator ≤ s.accBound) ∧
    -s.lineBound ≤ s.dose.lineOffset ∧ s.dose.lineOffset ≤ s.lineBound

/-- How many records of a queue carry a generation (R158). -/
def carrying (g : Generation) (q : List CanRecord) : Nat := q.countP (fun c => c.generation == g)

/-- The store and the queue agree (R157, R158, R162, R170): outside CONFIG all three records are present; every record carries
the current or the previous generation; each generation count is the number of records that carry it; a previous recipe is held
only while some record carries it; the current recipe carries the generation before the next, and the previous one the
generation before that. -/
def State.generationsAgree (s : State) : Prop :=
  (s.control.state ≠ .config → s.store.complete = true) ∧
    (∀ c ∈ s.tracking.queue, (∃ h, s.store.current = some h ∧ c.generation = h.generation) ∨
      (∃ h, s.store.previous = some h ∧ c.generation = h.generation)) ∧
    (∀ h, s.store.current = some h → h.count = carrying h.generation s.tracking.queue ∧
      h.generation = s.store.nextGeneration - 1) ∧
    (∀ h, s.store.previous = some h → h.count = carrying h.generation s.tracking.queue ∧ 0 < h.count ∧
      h.generation = s.store.nextGeneration - 2 ∧ s.store.current ≠ none)

/-- The platform state and what it stands on (R35 to R38, R49): IDLE exactly while no calibration record is present, with no
working figures and conversions stopped in IDLE and only there; outside IDLE the state is EMPTY exactly while the eye is clear; a
weighing is in progress in RUN and HALT alone; and the unit is IDLE while the reset pin is held. -/
def State.platformAgrees (s : State) : Prop :=
  (s.weigh.platform = .idle ↔ s.store.calibration = none) ∧
    (s.weigh.platform = .idle ↔ s.weigh.conversion = .stopped) ∧
    (s.weigh.platform = .idle ↔ s.weigh.fz = none) ∧ (s.weigh.platform = .idle ↔ s.weigh.span = none) ∧
    (s.weigh.platform = .empty → s.pins.eye = false) ∧ (s.weigh.platform = .waitClear → s.pins.eye = true) ∧
    (∀ w, s.weigh.platform = .dwell w → s.pins.eye = true ∧ s.control.state.working = true) ∧
    (s.resetHeld = true → s.weigh.platform = .idle)

/-! ## Requests and answers -/

/-- The decoder of its link takes the request frame now: the reset pin is released, no answer is held, and the link's request in
progress is absent or is this frame (R190, R195). -/
def State.awaits (s : State) (f : RequestFrame) : Prop :=
  s.resetHeld = false ∧ (s.link f.link).admits f.kind f.payload f.stamp = true

/-- The answer OK with a payload. -/
def Reply.ok (p : List Byte) : Reply := { status := .ok, payload := p }

/-- The answer of a refusal: the status alone (R201). -/
def Reply.refused (st : Status) : Reply := { status := st, payload := [] }

/-- A cause is pending with a detail on all three master links. -/
def State.pendingOnAll (s : State) (c : Cause) (d : Int) : Prop :=
  ∀ l : Link, { cause := c, detail := d } ∈ (s.att l).pending

/-- The state controller has acted on a HALT reason raised in the state `s` (R172): from RUN the part is in HALT with the line
stop asserted and HALT_ENTERED pending on all links with the reason as detail; elsewhere nothing of it has changed. -/
def State.haltedBy (t s : State) (reason : Cause) : Prop :=
  (s.control.state = .run → t.control = { s.control with state := .halt, lineStop := true } ∧
    t.pendingOnAll .haltEntered reason.code) ∧
  (s.control.state ≠ .run → t.control = s.control)

/-- What a flush of the queue of `s` leaves of the can list and of the attention states of the filler and the quality link (R31,
R93, R94, R96): the records follow in the ring in queue order with the verdict FLUSHED, none of them pending; where the unread count
rises to the level while the flag is armed, CAN_LIST_LEVEL is raised once, with the count at which that happens, and the flag is
disarmed. -/
def State.flushedList (t s : State) : Prop :=
  let all := s.canList.ring ++ s.tracking.queue.map (fun c => summaryOf c .flushed false)
  let n := min 256 (s.canList.unread + s.tracking.queue.length)
  let reached := s.canList.armed = true ∧ s.canList.unread < n ∧ s.canList.level ≤ n
  t.canList.ring = all.drop (all.length - 256) ∧ t.canList.unread = n ∧ t.canList.level = s.canList.level ∧
    (reached → t.canList.armed = false ∧ t.att .quality =
      (s.att .quality).raised s.now .canListLevel (max s.canList.level (s.canList.unread + 1) : Nat)) ∧
    (¬reached → t.canList.armed = s.canList.armed ∧ t.att .quality = s.att .quality) ∧
    t.att .filler = s.att .filler

/-- The supervisor link's attention state with RECIPE_RETIRED raised for the previous recipe, where one is held (R162). -/
def State.attRetired (s : State) : Attention :=
  match s.store.previous with
  | some h => (s.att .supervisor).raised s.now .recipeRetired h.generation.toNat
  | none => s.att .supervisor

/-! ## Runs of commands -/

/-- Commands carried out one after the other. -/
def execAll : List Instr → State → Result
  | [], s => .next s
  | i :: rest, s =>
    match exec i s with
    | .next t => execAll rest t
    | .fault r => .fault r
    | .refused r => .refused r

/-- A character received free of error, as it stands in a receive FIFO. -/
def cleanEntry (c : Byte) (stamp : Option Position) : Entry :=
  { char := some c, parity := false, framing := false, brk := false, overrun := false, stamp := stamp }

end Sys2Proof.Machine
end

