-- ==== Sys2Proof/Certificates/Slice0/Obligations.lean ====
section
/-! DEFINITION. The statements for the provers. Each docstring cites the rules of spec/ a statement rests on; where a clause is
the model's own choice it names the log entry. -/

open Sys2Proof Sys2Proof.Machine

/-! ## The queue of commands and the clock -/

/-- A step with a command at the front of the queue is that command carried out with the queue's rest. -/
def Obligations.StepRunsFrontCommand : Prop :=
  ∀ (c : Instr) (q : List Instr) (s : State), step { s with pending := c :: q } = exec c { s with pending := q }

/-- The model's choice (log entry 7): a step on an empty queue puts a piece of the part's own due work in the queue and changes
nothing else but the count of free choices; with none due it is a tick of the clock, which the period counter counts while it
runs (R39), its overflow becoming due at the tick that would take it past 65,535 (R40). That the overflow goes before all else that
falls at that tick (log entry 27), and that the counter counts and overflows in the wait after a drop as well (log entry 11), are the
model's choices too. -/
def Obligations.IdleStep : Prop :=
  ∀ s : State, s.pending = [] →
    (dueNow s ≠ [] → ∃ i n, i ∈ dueNow s ∧ step s = .next { s with pending := [i], choices := n }) ∧
    (dueNow s = [] → counting s = false → step s = .next { s with now := s.now + 1 }) ∧
    (dueNow s = [] → counting s = true → s.weigh.period < 65535 →
      step s = .next { s with now := s.now + 1, weigh := { s.weigh with period := s.weigh.period + 1 } }) ∧
    (dueNow s = [] → counting s = true → 65535 ≤ s.weigh.period →
      step s = .next { s with now := s.now + 1, pending := [.conversionOverflow] })

/-- No command stops the part, and none touches the clock or the queue of waiting commands (00_scope.md, "How the blocks work
together"; the queue and the clock are the model's own, log entries 4 and 7). -/
def Obligations.EveryCommandCompletes : Prop :=
  ∀ (i : Instr) (s : State), ∃ t, exec i s = .next t ∧ t.pending = s.pending ∧ t.now = s.now

/-! ## Frames, requests and answers (chapters 9 and 10) -/

/-- The characters of a request frame, received free of error on an idle link whose assembler is in HUNT, are taken one by one
into a request in progress with the kind, the payload and the lead's stamp as sent (R187, R188); nothing else changes. -/
def Obligations.FrameIsAssembledAsSent : Prop :=
  ∀ (l : Link) (kind : Byte) (p : List Byte) (stamps : Nat → Option Position) (rest : List Entry) (s : State),
    p.length ≤ 120 → s.resetHeld = false → (s.link l).takes = true → (s.link l).assembler = .hunt →
    (s.link l).port.rx.fifo = (frameCharacters kind p).mapIdx (fun i c => cleanEntry c (stamps i)) ++ rest →
    execAll (List.replicate (p.length + 4) (.frameEntryTaken l)) s =
      .next (s.setLink l { (s.link l).setRx { (s.link l).port.rx with fifo := rest } with
        request := some { kind := kind, payload := p, stamp := stamps 0 } })

/-- The frame assembler takes the next entry (R187, R188): a gap entry abandons a frame and adds to the frame timeouts, a flagged
character discards one in silence, an error-free one moves the assembler on; a length above 120 or a check that does not bring the
sum to 0 modulo 256 adds to the check errors, and a good frame becomes the request in progress. It takes none while an answer is held or
a request is in progress. -/
def Obligations.FrameEntryActs : Prop :=
  ∀ (l : Link) (e : Entry) (rest : List Entry) (s : State), s.resetHeld = false → (s.link l).port.rx.fifo = e :: rest →
    let m := s.link l
    let taken := m.setRx { m.port.rx with fifo := rest }
    let leaves := fun k : MasterLink => exec (.frameEntryTaken l) s = .next (s.setLink l k)
    let goes := fun a : FrameAssembler => leaves { taken with assembler := a }
    let drops := fun (c : ErrorCounts) (code : Int) =>
      (m.errorArmed = false → leaves { taken with assembler := .hunt, counts := c }) ∧
      (m.errorArmed = true → exec (.frameEntryTaken l) s = .next (raiseOn l .linkError code
        (s.setLink l { taken with assembler := .hunt, counts := c, errorArmed := false })))
    let timeouts : ErrorCounts := { m.counts with frameTimeouts := min 65535 (m.counts.frameTimeouts + 1) }
    let checks : ErrorCounts := { m.counts with checkErrors := min 65535 (m.counts.checkErrors + 1) }
    (m.held ≠ none ∨ m.request ≠ none → exec (.frameEntryTaken l) s = .next s) ∧
    (m.held = none → m.request = none →
      (e.char = none → m.assembler = .hunt → goes .hunt) ∧
      (e.char = none → m.assembler ≠ .hunt → drops timeouts 3) ∧
      (e.char ≠ none → e.flagged = true → goes .hunt) ∧
      (∀ c, e.char = some c → e.flagged = false →
        (m.assembler = .hunt → c = 0x02 → goes (.kind e.stamp)) ∧ (m.assembler = .hunt → c ≠ 0x02 → goes .hunt) ∧
        (∀ st, m.assembler = .kind st → goes (.length st c)) ∧
        (∀ st k, m.assembler = .length st k →
          (120 < c.toNat → drops checks 4) ∧ (c = 0 → goes (.check st k c [])) ∧
          (c ≠ 0 → c.toNat ≤ 120 → goes (.payload st k c []))) ∧
        (∀ st k n q, m.assembler = .payload st k n q →
          (q.length + 1 < n.toNat → goes (.payload st k n (q ++ [c]))) ∧
          (n.toNat ≤ q.length + 1 → goes (.check st k n (q ++ [c])))) ∧
        (∀ st k n q, m.assembler = .check st k n q →
          (sumBytes (k :: n :: (q ++ [c])) = 0 →
            leaves { taken with assembler := .hunt, request := some { kind := k, payload := q, stamp := st } }) ∧
          (sumBytes (k :: n :: (q ++ [c])) ≠ 0 → drops checks 4))))

/-- A character or a gap entry on a master link (R182, R183, R185, R186, R192). Between frames an Xon or Xoff free of error only
moves the pause. At a full FIFO a character or a gap entry is lost, marked for the next, and the phase returns to BETWEEN. Any other is stored with its
flags and the overrun flag after a loss; the phase moves on; each count its flags name gains one, and LINK_ERROR is raised while its
flag is armed, which it then is no more. Nothing but that link and its attention state changes. The 67 half bits of silence, counted
from the middle of the stop bit, and the end of the watch at flow control and at a lost entry are the model's reading of R183 (log
entry 12). -/
def Obligations.LinkReception : Prop :=
  ∀ (l : Link) (data : Byte) (parityBit stopBit : Bool) (s : State), s.resetHeld = false →
    let m := s.link l
    let rx := m.port.rx
    let stamp := if l = .filler then some s.tracking.position else none
    let e := entryOf data parityBit stopBit rx.lost stamp
    let bad := e.parity = true ∨ e.framing = true ∨ e.brk = true
    let plain := m.phase = .between ∧ ¬bad ∧ (rx.lost = false ∨ 128 ≤ rx.fifo.length)
    let flow := plain ∧ (data = 0x11 ∨ data = 0x13)
    let receives := fun t : State => exec (.characterReceived l data parityBit stopBit) s = .next t
    let only := fun t : State => t = { s with links := t.links, attention := t.attention, choices := t.choices } ∧
      (∀ k, k ≠ l → t.link k = s.link k ∧ t.att k = s.att k)
    let counted := fun (bad : Prop) (t : State) =>
      ((¬bad ∧ rx.lost = false) → (t.link l).counts = m.counts ∧ (t.link l).errorArmed = m.errorArmed ∧ t.att l = s.att l) ∧
      (bad → (t.link l).counts.characterErrors = min 65535 (m.counts.characterErrors + 1)) ∧
      (rx.lost = true → (t.link l).counts.overruns = min 65535 (m.counts.overruns + 1)) ∧
      (t.link l).counts.frameTimeouts = m.counts.frameTimeouts ∧ (t.link l).counts.checkErrors = m.counts.checkErrors ∧
      (bad ∨ rx.lost = true → (t.link l).errorArmed = false ∧
        (m.errorArmed = true → ∃ d : Int, { cause := .linkError, detail := d } ∈ (t.att l).pending ∧
          (d = 1 ∧ bad ∨ d = 2 ∧ rx.lost = true)) ∧
        (m.errorArmed = false → t.att l = s.att l))
    (rx.breakLow = true → receives s) ∧
    (rx.breakLow = false → flow → receives (s.setLink l { m.setRx { rx with silence := none } with
      pause := if data = 0x13 then some (s.now + ms 2000) else none })) ∧
    (rx.breakLow = false → ¬flow → 128 ≤ rx.fifo.length →
      receives (s.setLink l { m.setRx { rx with lost := true, silence := none } with phase := .between })) ∧
    (rx.breakLow = false → ¬flow → rx.fifo.length < 128 → ∃ t, receives t ∧ only t ∧
      (t.link l).port.rx = { fifo := rx.fifo ++ [e], lost := false, silence := some s.now, breakLow := false } ∧
      (t.link l).phase = (if bad ∨ rx.lost = true then .between else match m.phase with
        | .between => if data = 0x02 then .kind else .between
        | .kind => .length
        | .length => if data = 0 then .check else if data.toNat ≤ 120 then .payload data.toNat else .between
        | .payload n => if n ≤ 1 then .check else .payload (n - 1)
        | .check => .between) ∧
      (t.link l).pause = m.pause ∧ (t.link l).assembler = m.assembler ∧ (t.link l).request = m.request ∧
      (t.link l).held = m.held ∧ (t.link l).port.tx = m.port.tx ∧ counted bad t) ∧
    (∀ since, rx.silence = some since → 67 * 20000000 < 2 * linkSpeed m.port.straps * (s.now - since) →
      rx.fifo.length < 128 → ∃ t, exec (.gapEntry l) s = .next t ∧ only t ∧
        (t.link l).port.rx.fifo = rx.fifo ++ [{ char := none, parity := false, framing := false, brk := false,
                                                 overrun := rx.lost, stamp := stamp }] ∧
        (t.link l).port.rx.lost = false ∧ (t.link l).port.rx.silence = none ∧ (t.link l).phase = .between ∧
        (t.link l).assembler = m.assembler ∧ counted False t) ∧
    (∀ since, rx.silence = some since → 67 * 20000000 < 2 * linkSpeed m.port.straps * (s.now - since) →
      128 ≤ rx.fifo.length →
      exec (.gapEntry l) s = .next (s.setLink l { m.setRx { rx with lost := true, silence := none } with phase := .between }))

/-- A break, recognised once, and its end (R72, R184, R204). On a master link both FIFOs are emptied, the pause, the frame, the request
in progress and the held answer are dropped, the counts are 0 and LINK_ERROR is armed; the attention state stays. On the reader link
both FIFOs are emptied and the message being collected is dropped; from HELD one Xon is placed and the flow state becomes OPEN. That
a completed message still waiting for its match is kept is the model's reading of R72 (log entry 14). The end of a break on any
channel lets it receive again. -/
def Obligations.BreaksAndTheirEnds : Prop :=
  (∀ (l : Link) (s : State), s.resetHeld = false →
    let m := s.link l
    (m.port.rx.breakLow = true → exec (.linkBreak l) s = .next s) ∧
    (m.port.rx.breakLow = false → ∃ k : MasterLink, exec (.linkBreak l) s = .next (s.setLink l k) ∧
      k.port.rx.fifo = [] ∧ k.port.rx.breakLow = true ∧ k.port.tx.fifo = [] ∧ k.port.tx.sending = m.port.tx.sending ∧
      k.port.straps = m.port.straps ∧ k.phase = .between ∧ k.pause = none ∧ k.assembler = .hunt ∧ k.request = none ∧
      k.held = none ∧ k.counts = { characterErrors := 0, overruns := 0, frameTimeouts := 0, checkErrors := 0 } ∧
      k.errorArmed = true)) ∧
  (∀ s : State, s.resetHeld = false → s.reader.rx.breakLow = false → ∃ t, exec .readerBreak s = .next t ∧
    t = { s with reader := t.reader, code := t.code } ∧ t.reader.rx.fifo = [] ∧ t.reader.rx.breakLow = true ∧
    t.reader.straps = s.reader.straps ∧ t.reader.tx.sending = s.reader.tx.sending ∧
    (s.code.flow = .held → t.reader.tx.fifo = [0x11] ∧ t.code = { s.code with assembler := .idle, flow := .opened }) ∧
    (s.code.flow = .opened → t.reader.tx.fifo = [] ∧ t.code = { s.code with assembler := .idle })) ∧
  (∀ s : State, s.resetHeld = false → s.reader.rx.breakLow = true → exec .readerBreak s = .next s) ∧
  (∀ (ch : Channel) (s : State), s.resetHeld = false → ∃ t, exec (.breakEnd ch) s = .next t ∧
    t = { s with links := t.links, reader := t.reader } ∧
    t.port ch = { s.port ch with rx := { (s.port ch).rx with breakLow := false } } ∧
    (∀ other, other ≠ ch → t.port other = s.port other))

/-- The times and steps of the links: a pause that has run out ends (R186), a held answer is placed once the transmit FIFO has room for
it (R190), a free transmitter begins the next character of its FIFO (R191), and an attention line whose hold has run out is released
(R209). -/
def Obligations.LinkTimesAndTransmitters : Prop :=
  ∀ (l : Link) (s : State), s.resetHeld = false →
    let m := s.link l
    (∀ e, m.pause = some e → e ≤ s.now → exec (.pauseExpiry l) s = .next (s.setLink l { m with pause := none })) ∧
    (∀ a, m.held = some a → m.port.tx.fifo.length + a.length ≤ 128 →
      exec (.heldAnswerPlaced l) s = .next (s.setLink l { m with
        held := none, port := { m.port with tx := { m.port.tx with fifo := m.port.tx.fifo ++ a } } })) ∧
    (∀ e, (s.att l).hold = some e → e ≤ s.now →
      exec (.attentionHoldExpiry l) s = .next (s.setAtt l { s.att l with hold := none })) ∧
    (∀ (ch : Channel) (c : Byte) (rest : List Byte), (s.port ch).tx.fifo = c :: rest →
      (∀ k, masterOf ch = some k → (s.link k).pause = none) →
      (∀ b, (s.port ch).tx.sending = some b →
        22 * 20000000 ≤ 2 * linkSpeed (s.port ch).straps * (s.now - b.began)) →
      exec (.characterSent ch) s = .next (s.setPort ch { s.port ch with
        tx := { fifo := rest, sending := some { char := c, began := s.now } } }))

/-- The form of an answer (R189). A built answer ends the request in progress and is placed whole at the end of the transmit FIFO
where it has room, and held where it has none; nothing else changes (R190, R195). -/
def Obligations.AnswersAreFormedAndPlaced : Prop :=
  (∀ (kind : Byte) (r : Reply), r.payload.length ≤ 120 →
     ∃ n st check : Byte, answerFrame kind r = 0x02 :: (kind + 0x80) :: n :: st :: (r.payload ++ [check]) ∧
       n.toNat = r.payload.length ∧ st.toNat = r.status.code ∧
       sumBytes ((kind + 0x80) :: n :: st :: (r.payload ++ [check])) = 0 ∧
       5 ≤ (answerFrame kind r).length ∧ (answerFrame kind r).length ≤ 125) ∧
  (∀ (l : Link) (kind : Byte) (r : Reply) (s : State),
     ((s.link l).port.tx.fifo.length + (answerFrame kind r).length ≤ 128 →
       answer l kind r s = s.setLink l { s.link l with
         request := none,
         port := { (s.link l).port with tx := { (s.link l).port.tx with
           fifo := (s.link l).port.tx.fifo ++ answerFrame kind r } } }) ∧
     (128 < (s.link l).port.tx.fifo.length + (answerFrame kind r).length →
       answer l kind r s = s.setLink l { s.link l with request := none, held := some (answerFrame kind r) }))

/-- The checks before the owning block's own (R196, R198, R199): a request that its link may not send is answered LINK, and one
of the wrong payload length LENGTH, and nothing changes but the link it is answered on. A frame of an unknown kind is answered
UNKNOWN with an empty payload and its kind with 0x80 added modulo 256 (R197). The kinds each link may send, the payload length of
each kind and the kind codes are those of the tables of R198 and 12.2 (R199). -/
def Obligations.RequestChecks : Prop :=
  (∀ (i : Instr) (f : RequestFrame) (k : Kind) (s : State), i.wellFormed = true → i.frame? = some f → f.kind = k.code →
     s.awaits f →
     (permitted k f.link = false → exec i s = .next (answer f.link k.code (.refused .link) s)) ∧
     (permitted k f.link = true → lengthOk k f.payload = false →
       exec i s = .next (answer f.link k.code (.refused .length) s))) ∧
  ((∀ (l : Link) (kind : Byte) (p : List Byte) (s : State), Kind.ofCode kind = none → s.awaits ⟨l, kind, p, none⟩ →
     exec (.unknownKind l kind p) s = .next (answer l kind (.refused .unknown) s)) ∧
   (∀ (k : Kind) (kind : Byte), Kind.ofCode kind = some k → kind = k.code) ∧
   (∀ kind : Byte, Kind.ofCode kind = none ↔ kind = 0 ∨ 29 < kind.toNat) ∧
   (∀ k : Kind, Kind.ofCode (k.code + 0x80) = none) ∧ ((0x85 : Byte) + 0x80 = 0x05) ∧
   (∀ kind : Byte, ∃ check : Byte,
     answerFrame kind (.refused .unknown) = [0x02, kind + 0x80, 0x00, 0x09, check])) ∧
  ((∀ (k : Kind) (l : Link), permitted k l = true ↔ k ∈ (match l with
      | .filler => [Kind.fillReport, .doseQuery, .valveHold, .valveFree, .statusRead, .causeTake, .causeEnable, .linkStats]
      | .supervisor => [.doseQuery, .valveHold, .valveFree, .valveAccept, .baseSet, .valveView, .layoutLoad, .calLoad,
          .recipeLoad, .recordRead, .start, .stop, .clear, .flush, .restart, .freeze, .thaw, .thawAll, .zeroCapture,
          .spanCapture, .captureResult, .queueView, .statusRead, .causeTake, .causeEnable, .linkStats]
      | .quality => [.doseQuery, .valveHold, .valveFree, .valveView, .recordRead, .canListTake, .listLevelSet, .queueView,
          .statusRead, .causeTake, .causeEnable, .linkStats])) ∧
   (∀ (k : Kind) (p : List Byte), k ≠ .recipeLoad → (lengthOk k p = true ↔ (k, p.length) ∈
      [(Kind.fillReport, 4), (.doseQuery, 2), (.valveHold, 1), (.valveFree, 1), (.valveAccept, 1), (.baseSet, 3),
       (.valveView, 2), (.layoutLoad, 17), (.calLoad, 14), (.recordRead, 1), (.start, 0), (.stop, 0), (.clear, 0),
       (.flush, 0), (.restart, 0), (.freeze, 0), (.thaw, 0), (.thawAll, 0), (.zeroCapture, 0), (.spanCapture, 3),
       (.captureResult, 0), (.canListTake, 1), (.listLevelSet, 2), (.queueView, 2), (.statusRead, 0), (.causeTake, 0),
       (.causeEnable, 2), (.linkStats, 1)])) ∧
   (∀ p : List Byte, lengthOk .recipeLoad p = true ↔ 33 ≤ p.length ∧ p.length = 33 + (p.getD 32 0).toNat) ∧
   [Kind.fillReport, .doseQuery, .valveHold, .valveFree, .valveAccept, .baseSet, .valveView, .layoutLoad, .calLoad,
    .recipeLoad, .recordRead, .start, .stop, .clear, .flush, .restart, .freeze, .thaw, .thawAll, .zeroCapture, .spanCapture,
    .captureResult, .canListTake, .listLevelSet, .queueView, .statusRead, .causeTake, .causeEnable, .linkStats].map
      Kind.code = (List.range 29).map (fun i => BitVec.ofNat 8 (i + 1)))

/-- The requests that read answer from the state as it stands: QUEUE VIEW, STATUS READ, CAPTURE RESULT, RECORD READ and VALVE VIEW
(R33, R61, R142, R143, R148, R205) change nothing but the link they are answered on, and are refused with RANGE for a field out of its
range; VALVE VIEW with its clear flag set, from the
supervisor link alone, then sets the two counts of the valve to 0; LINK STATS (R193) arms LINK_ERROR, and with its clear flag set
then sets the four counts of its link to 0. The bytes of the answers are those of AnswerLayouts. -/
def Obligations.ReadsAndViews : Prop :=
  ((∀ (l : Link) (start n : Byte) (s : State), l ≠ .filler → s.awaits ⟨l, Kind.queueView.code, [start, n], none⟩ →
     start.toNat ≤ 191 → 1 ≤ n.toNat → n.toNat ≤ 8 →
     let views := (s.tracking.queue.drop start.toNat).take (min n.toNat 5)
     exec (.queueView l [start, n]) s = .next (answer l 0x19 (.ok (u24 s.tracking.position.toNat ++
       u8 s.tracking.queue.length ++ [start] ++ u8 views.length ++
       views.flatMap (recordViewBytes s.tracking.position))) s)) ∧
   (∀ (l : Link) (start n : Byte) (s : State), l ≠ .filler → s.awaits ⟨l, Kind.queueView.code, [start, n], none⟩ →
     191 < start.toNat ∨ n.toNat < 1 ∨ 8 < n.toNat →
     exec (.queueView l [start, n]) s = .next (answer l 0x19 (.refused .range) s)) ∧
   (∀ (l : Link) (s : State), s.awaits ⟨l, Kind.statusRead.code, [], none⟩ →
     exec (.statusRead l []) s = .next (answer l 0x1A (.ok (statusBytes l s)) s) ∧ (statusBytes l s).length = 48) ∧
   (∀ s : State, s.awaits ⟨.supervisor, Kind.captureResult.code, [], none⟩ →
     exec (.captureResult .supervisor []) s = .next (answer .supervisor 0x16 (.ok (captureBytes s.weigh.capture)) s)) ∧
   (∀ (l : Link) (x : Byte) (s : State), l ≠ .filler → s.awaits ⟨l, Kind.recordRead.code, [x], none⟩ →
     (x = 0 → exec (.recordRead l [x]) s =
       .next (answer l 0x0B (.ok (presentBytes layoutBytes s.store.layout)) s)) ∧
     (x = 1 → exec (.recordRead l [x]) s =
       .next (answer l 0x0B (.ok (presentBytes calibrationBytes s.store.calibration)) s)) ∧
     (x = 2 → exec (.recordRead l [x]) s =
       .next (answer l 0x0B (.ok (presentBytes heldRecipeBytes s.store.current)) s)) ∧
     (x = 3 → exec (.recordRead l [x]) s =
       .next (answer l 0x0B (.ok (presentBytes heldRecipeBytes s.store.previous)) s)) ∧
     (3 < x.toNat → exec (.recordRead l [x]) s = .next (answer l 0x0B (.refused .range) s))) ∧
   (∀ (l : Link) (v : Byte) (s : State), l ≠ .filler → s.awaits ⟨l, Kind.valveView.code, [v, 0], none⟩ →
     (1 ≤ v.toNat → v.toNat ≤ s.valveCount → exec (.valveView l [v, 0]) s =
       .next (answer l 0x07 (.ok (valveViewBytes v.toNat s)) s)) ∧
     (v.toNat < 1 ∨ s.valveCount < v.toNat → exec (.valveView l [v, 0]) s = .next (answer l 0x07 (.refused .range) s))) ∧
   (∀ (l : Link) (v x : Byte) (s : State), l ≠ .filler → 1 < x.toNat → s.awaits ⟨l, Kind.valveView.code, [v, x], none⟩ →
     exec (.valveView l [v, x]) s = .next (answer l 0x07 (.refused .range) s))) ∧
  (∀ (l : Link) (v : Byte) (s : State), l ≠ .filler → s.awaits ⟨l, Kind.valveView.code, [v, 1], none⟩ →
     (v.toNat < 1 ∨ s.valveCount < v.toNat → exec (.valveViewClear l v) s = .next (answer l 0x07 (.refused .range) s)) ∧
     (1 ≤ v.toNat → v.toNat ≤ s.valveCount → l = .quality →
       exec (.valveViewClear l v) s = .next (answer l 0x07 (.refused .link) s)) ∧
     (1 ≤ v.toNat → v.toNat ≤ s.valveCount → l = .supervisor →
       let e : Valve := { s.valve v.toNat with weighed := 0, rejected := 0 }
       exec (.valveViewClear l v) s = .next (answer l 0x07 (.ok (valveViewBytes v.toNat s))
         { s with dose := { s.dose with valves := s.dose.valves.set (v.toNat - 1) e } }))) ∧
  (∀ (l : Link) (s : State),
     let m := s.link l
     let c := m.counts
     let stats := u16 c.characterErrors ++ u16 c.overruns ++ u16 c.frameTimeouts ++ u16 c.checkErrors ++
       [if m.pause = none then 0 else 1]
     (s.awaits ⟨l, Kind.linkStats.code, [0], none⟩ → exec (.linkStats l [0]) s =
       .next (answer l 0x1D (.ok stats) (s.setLink l { m with errorArmed := true }))) ∧
     (∀ x : Byte, 1 < x.toNat → s.awaits ⟨l, Kind.linkStats.code, [x], none⟩ → exec (.linkStats l [x]) s =
       .next (answer l 0x1D (.refused .range) s)) ∧
     (s.awaits ⟨l, Kind.linkStats.code, [1], none⟩ → exec (.linkStatsClear l) s =
       .next (answer l 0x1D (.ok stats) (s.setLink l { m with errorArmed := true, counts :=
         { characterErrors := 0, overruns := 0, frameTimeouts := 0, checkErrors := 0 } }))))

/-! ## Reset -/

/-- What the part holds after reset, where the spec gives it (R34, R62, R80, R97, R98, R127, R168, R180, R192, R194, R195,
R211). -/
def Obligations.ResetValues : Prop :=
  let s := State.reset
  s.tracking = { position := 0, residue := 0, queue := [], serial := 0, slip := 0 } ∧
  s.weigh.platform = .idle ∧ s.weigh.zeroState = .normal ∧ s.weigh.fz = none ∧ s.weigh.span = none ∧
  s.weigh.latest = none ∧ s.weigh.period = 0 ∧ s.weigh.cellRun = 0 ∧ s.weigh.cellFault = false ∧
  s.weigh.settleCount = 0 ∧ s.weigh.zeroRun = 0 ∧ s.weigh.capture.kind = .none ∧ s.weigh.capture.outcome = .none ∧
  s.weigh.capture.count = 0 ∧ s.code.assembler = .idle ∧ s.code.flow = .opened ∧ s.code.stray = 0 ∧
  s.gate.drive = none ∧ s.gate.confirmLevel = false ∧ s.gate.windows = [] ∧ s.gate.unconfirmed = 0 ∧
  s.canList = { ring := [], unread := 0, level := 64, armed := true } ∧
  s.dose.valves.length = 64 ∧ (∀ e ∈ s.dose.valves, e.state = .unused ∧ e.baseOffset = 0 ∧ e.accumulator = 0 ∧
    e.limitRun = 0 ∧ e.ootRun = 0 ∧ e.weighed = 0 ∧ e.rejected = 0 ∧ e.netWindow = [] ∧ e.alertArmed = true ∧
    e.lastDose = 0) ∧ s.dose.lineOffset = 0 ∧ s.dose.centering = 0 ∧ s.dose.freeze = { line := false, supervisor := false } ∧
  s.store = { layout := none, calibration := none, current := none, previous := none, nextGeneration := 0 } ∧
  s.control.state = .config ∧ s.control.lineStop = false ∧ s.control.decoder = .recover ∧ s.control.errors = 0 ∧
  s.control.lastCommand = none ∧
  (∀ l : Link, (s.link l).port.rx.fifo = [] ∧ (s.link l).port.tx.fifo = [] ∧ (s.link l).phase = .between ∧
    (s.link l).pause = none ∧ (s.link l).assembler = .hunt ∧ (s.link l).request = none ∧ (s.link l).held = none ∧
    (s.link l).counts = { characterErrors := 0, overruns := 0, frameTimeouts := 0, checkErrors := 0 } ∧
    (s.link l).errorArmed = true ∧ (s.att l).pending = [{ cause := .powerUp, detail := 0 }] ∧
    (∀ c : Cause, c ∈ (s.att l).enabled) ∧ (s.att l).hold = some 10000000) ∧
  s.reader.rx.fifo = [] ∧ s.reader.tx.fifo = []

/-- The three commands that reset the part (00_scope.md, "Reset"; R34, R62, R80, R97, R127, R168, R180, R194, R204, R211). POWER_ON
always, the assertion of the reset pin while it was released, and its release while it was held leave every block as State.reset has
it, whose values ResetValues gives, with the line command spell timed from now. Power-on and the release sample the straps (R181);
with the pin released an active confirm input starts to qualify (R88) and POWER_UP asserts each attention line for 500 ms (R209,
R211); with it held the lines are released. The clock, the pins' levels and the waiting commands stay. That POWER_ON leaves the
reset pin as it is, the attention state while the pin is held (log entry 15), and that a reset ends a recognised break (log entry
16), are the model's reading; that an assertion while held and a release while released change nothing is its choice (log entry
4). -/
def Obligations.ResetCommands : Prop :=
  ∀ (x : Straps) (s : State),
    let strapped := fun (m : MasterLink) (p : StrapPair) => { m with port := { m.port with straps := p } }
    let fresh := fun (y : Straps) (held : Bool) =>
      let lines := fun a : Attention => { a with hold := if held = true then none else some (s.now + 10000000) }
      let r := State.reset
      { r with
        now := s.now, choices := s.choices, pending := s.pending, pins := s.pins, resetHeld := held
        gate := { r.gate with qualify := if held = false ∧ s.pins.confirm = true then some s.now else none }
        control := { r.control with spellStart := s.now }
        links := { filler := strapped r.links.filler y.filler, supervisor := strapped r.links.supervisor y.supervisor,
                   quality := strapped r.links.quality y.quality }
        reader := { r.reader with straps := y.reader }
        attention := { filler := lines r.attention.filler, supervisor := lines r.attention.supervisor,
                       quality := lines r.attention.quality } }
    let kept : Straps :=
      { filler := s.links.filler.port.straps, supervisor := s.links.supervisor.port.straps,
        quality := s.links.quality.port.straps, reader := s.reader.straps }
    exec (.powerOn x) s = .next (fresh x s.resetHeld) ∧
    (s.resetHeld = false → exec .resetPinAssert s = .next (fresh kept true)) ∧
    (s.resetHeld = true → exec .resetPinAssert s = .next s) ∧
    (s.resetHeld = true → exec (.resetPinRelease x) s = .next (fresh x false)) ∧
    (s.resetHeld = false → exec (.resetPinRelease x) s = .next s)

/-- While the reset pin is held no command but a reset moves any block: only the levels of the input pins are noted, with the
edge from which the line command spell is timed (R34, R62, R97, R127, R168, R180, R194, R204). The confirm input is not qualified:
the gate stays as it is, but that the inactive edge ends a qualification (R88, R97). Every output pin stands at its released or off
level (R215). The choice of what is noted is the model's (log entry 4). -/
def Obligations.NothingTakenWhileResetHeld : Prop :=
  ∀ (i : Instr) (s t : State), s.resetHeld = true → i.resets = false → exec i s = .next t →
    (t = { s with pins := t.pins, control := { s.control with spellStart := t.control.spellStart },
                  gate := { s.gate with confirmLevel := t.gate.confirmLevel, qualify := t.gate.qualify } }) ∧
    (t.gate = s.gate ∨ t.gate = { s.gate with confirmLevel := false, qualify := none }) ∧
    t.pinReject = false ∧ t.pinLineStop = false ∧ (∀ l, t.pinAttention l = true) ∧ (∀ ch, t.pinTransmit ch = true)

/-! ## What every step keeps -/

/-- The agreements and bounds of the next statements hold after reset. -/
def Obligations.AgreementsHoldAtReset : Prop :=
  State.reset.lineStopAgrees ∧ State.reset.attentionAgrees ∧ State.reset.withinCapacity ∧ State.reset.doseBounded ∧
    State.reset.generationsAgree ∧ State.reset.platformAgrees

/-- The line stop output is asserted if and only if the operating state is HALT (R173): every step keeps it so. -/
def Obligations.StepKeepsLineStop : Prop :=
  ∀ s t : State, s.lineStopAgrees → step s = .next t → t.lineStopAgrees

/-- An attention line is asserted only while an enabled cause is pending on its link (R209), and a pending set holds each cause
once, in priority order (R207, R208): every step keeps it so. -/
def Obligations.StepKeepsAttention : Prop :=
  ∀ s t : State, s.attentionAgrees → step s = .next t → t.attentionAgrees

/-- Every step keeps these within their capacities: the transit queue (192, R6), the dwell buffer (24, R45), the text being
collected and that of a completed message (24, R65), the open confirm windows (32, R89), the can list (256, R94), the net windows
(8, R112), and the receive FIFOs of all channels and the transmit FIFOs of the master links (128, R63, R182, R190). The reader link's
transmit FIFO is not among them (log entry 18). -/
def Obligations.StepKeepsCapacities : Prop :=
  ∀ s t : State, s.withinCapacity → step s = .next t → t.withinCapacity

/-- Every step keeps the valve table as chapters 5 and 6 describe it, every accumulator within A_lim of the current recipe and the
line offset within its line limit (R98, R100, R128, R131). -/
def Obligations.StepKeepsDoseBounds : Prop :=
  ∀ s t : State, s.doseBounded → step s = .next t → t.doseBounded

/-- Every step keeps the generation counts equal to the numbers of records that carry them, and every record's recipe held
(R157, R158, R162, R166). -/
def Obligations.StepKeepsGenerations : Prop :=
  ∀ s t : State, s.generationsAgree → step s = .next t → t.generationsAgree

/-- Every step keeps the platform state in agreement with the calibration record, the eye and the operating state
(R35 to R38). -/
def Obligations.StepKeepsPlatform : Prop :=
  ∀ s t : State, s.platformAgrees → step s = .next t → t.platformAgrees

/-! ## Rules over all commands -/

/-- A command of one link changes no other link, and a command of no link changes none (R203): only a reset reaches them all. -/
def Obligations.LinksAreIndependent : Prop :=
  ∀ (i : Instr) (k : Link) (s t : State), i.resets = false → i.link? ≠ some k → exec i s = .next t → t.link k = s.link k

/-- HALT is left by STOP, CLEAR or RESTART alone, as requests or as the line command, or by a reset (chapter 8, "The states at a
glance"). A bound already reached is taken before an edge of the line command input, which may then hand CLEAR on (log
entry 8). -/
def Obligations.HaltIsLeftByRequest : Prop :=
  ∀ (i : Instr) (s t : State), s.control.state = .halt → exec i s = .next t → t.control.state ≠ .halt →
    i.resets = true ∨ i = .stop .supervisor [] ∨ i = .restart .supervisor [] ∨
      (s.weigh.cellFault = false ∧
        (i = .clear .supervisor [] ∨ i = .lineClear ∨ i = .lcmdFallingEdge ∨ i = .lcmdRisingEdge))

/-- While the freeze source set is not empty, no accumulator and no line offset changes, except by RECIPE LOAD, RESTART, the
reset pin or power-on (R120). -/
def Obligations.FrozenPartHoldsItsTrims : Prop :=
  ∀ (i : Instr) (s t : State), s.frozen = true → i.resets = false → (∀ l p, i ≠ .recipeLoad l p) →
    (∀ l p, i ≠ .restart l p) → exec i s = .next t →
    t.dose.lineOffset = s.dose.lineOffset ∧ t.dose.valves.map Valve.accumulator = s.dose.valves.map Valve.accumulator

/-- Outside a reset the position counter moves only by an encoder pulse, by one step, wrapping (R4); the can serial counter moves
only by a FILL REPORT or a platform arrival that makes a record, by one for the one record (R9). -/
def Obligations.PositionAndSerialMoves : Prop :=
  ∀ (i : Instr) (s t : State), i.resets = false → exec i s = .next t →
    (t.tracking.position = s.tracking.position ∨
      (i = .encoderPulse ∧ t.tracking.position = s.tracking.position + 1)) ∧
    (t.tracking.serial = s.tracking.serial ∨
      ((i = .eyeBlockingEdge ∨ ∃ p st, i = .fillReport .filler p st) ∧ t.tracking.serial = s.tracking.serial + 1 ∧
        t.tracking.queue.length = s.tracking.queue.length + 1))

/-! ## Arithmetic -/

/-- Rounding is to the nearest integer with a tie taken away from zero; clamping and limiting replace a value outside by the
nearer bound; for a value not below 0 the two roundings agree (R2). The difference of two positions is taken modulo 16,777,216 and
read as a signed number, and the elapsed distance of a record is such a difference (R5). Both with the figures of the rules. -/
def Obligations.ArithmeticOfTheManual : Prop :=
  ((∀ (a : Int) (b : Nat), 0 < b →
     2 * (a - b * roundAway a b).natAbs ≤ b ∧
     (2 * (a - b * roundAway a b).natAbs = b → a.natAbs < (b * roundAway a b).natAbs)) ∧
   (∀ (a : Int) (b : Nat), 0 < b → 0 ≤ a → roundHalfUp a b = roundAway a b) ∧
   (∀ lo hi x : Int, lo ≤ hi → (x < lo → clamp lo hi x = lo) ∧ (hi < x → clamp lo hi x = hi) ∧
     (lo ≤ x → x ≤ hi → clamp lo hi x = x)) ∧
   (∀ (m : Nat) (x : Int), -(m : Int) ≤ limitTo m x ∧ limitTo m x ≤ m ∧ (x.natAbs ≤ m → limitTo m x = x)) ∧
   roundAway 5 2 = 3 ∧ roundAway (-5) 2 = -3) ∧
  ((∀ a b : Position, -8388608 ≤ posDiff a b ∧ posDiff a b ≤ 8388607 ∧
     (posDiff a b - ((a.toNat : Int) - b.toNat)) % 16777216 = 0 ∧ (posDiff a b = 0 ↔ a = b)) ∧
   (∀ (c : CanRecord) (x : Position), c.elapsed x = posDiff x c.discharge) ∧
   posDiff 300 16777000 = 516 ∧ posDiff 16777100 16777000 = 100 ∧ posDiff 16777000 250 = -466)

/-! ## Tracking (chapter 1) -/

/-- An encoder pulse below the divider only counts into the residue; at the divider the residue returns to 0 and one position
step is taken, which is all it does with no layout record (R3, R4). Under a layout record the step is the platform pass, the read pass
and the gate pass, in this order (R17), with the end of a weighing whose dwell exceeds the max dwell before, between or after them
(R47, R84; the free choice of log entry 2); after it the queue is empty or its head is short of the reject distance (R20). The
platform pass marks the FILLED records past the platform window MISSED, oldest first, up to the first that is not (R18, R21, R81); in
RUN and HALT each mark adds to the slip run, and TRACK_SLIP, a HALT reason, is raised as it comes to the slip alarm (R29). The read
pass sets the WEIGHED records past the reader window to READ with NOREAD in the same way (R19, R83). The gate pass hands over the head
while it is at or beyond the reject distance (R20). A weighing that ends so posts NO_READING(BRIDGED) to its record, and the unit
waits for the eye to clear (R47, R51, R82). -/
def Obligations.EncoderPulsesAndPasses : Prop :=
  (∀ s : State, s.resetHeld = false →
     let n := (s.store.layout.map Layout.divider).getD 1
     (s.tracking.residue + 1 < n → exec .encoderPulse s =
       .next { s with tracking := { s.tracking with residue := s.tracking.residue + 1 } }) ∧
     (n ≤ s.tracking.residue + 1 → s.store.layout = none → exec .encoderPulse s =
       .next { s with tracking := { s.tracking with residue := 0, position := s.tracking.position + 1 } }) ∧
     (n ≤ s.tracking.residue + 1 → ∃ t, exec .encoderPulse s = .next t ∧ t.tracking.residue = 0 ∧
       t.tracking.position = s.tracking.position + 1 ∧ t.tracking.serial = s.tracking.serial ∧ t.links = s.links ∧
       t.reader = s.reader ∧ t.code = s.code ∧ t.pins = s.pins ∧
       (s.control.state = .config ∨ s.control.state = .ready → t.control.state = s.control.state))) ∧
  (∀ (L : Layout) (s : State), s.resetHeld = false → s.store.layout = some L → L.divider ≤ s.tracking.residue + 1 →
     ∃ t, exec .encoderPulse s = .next t ∧
       ∀ c rest, t.tracking.queue = c :: rest → c.elapsed t.tracking.position < L.rejectDistance) ∧
  (∀ (L : Layout) (s : State), s.resetHeld = false → s.store.layout = some L → L.divider ≤ s.tracking.residue + 1 →
     let stepped : State := { s with
       tracking := { s.tracking with residue := 0, position := s.tracking.position + 1 } }
     let chosen : State := { stepped with choices := s.choices + 1 }
     let bridged := ∃ w, s.weigh.platform = .dwell w ∧ (L.maxDwell : Int) < posDiff (s.tracking.position + 1) w.arrival
     let gives := fun t : State => exec .encoderPulse s = .next t
     let p := platformPass L
     let r := readPass L
     let g := wholeGatePass L
     let b := endWithCause .bridged
     (¬bridged → gives (g (r (p stepped)))) ∧
     (bridged → gives (g (r (p (b chosen)))) ∨ gives (g (r (b (p chosen)))) ∨ gives (g (b (r (p chosen)))) ∨
       gives (b (g (r (p chosen)))))) ∧
  (∀ (L : Layout) (s : State),
     let t := platformPass L s
     let past := fun c : CanRecord => decide (c.stage ≠ .filled ∨
       (L.platformDistance : Int) + L.platformWindow < c.elapsed s.tracking.position)
     let seen := s.tracking.queue.takeWhile past
     let k := seen.countP (fun c => c.stage == .filled)
     let working := s.control.state = .run ∨ s.control.state = .halt
     let run := if working ∧ 0 < k then min 255 (s.tracking.slip + k) else s.tracking.slip
     let alarm := s.tracking.slip < L.slipAlarm ∧ L.slipAlarm ≤ run
     t = { s with tracking := t.tracking, control := t.control, attention := t.attention } ∧
     t.tracking = { s.tracking with
       queue := seen.map (fun c => if c.stage = .filled then
         { c with stage := .missed, reasons := addReason .missed c.reasons } else c) ++ s.tracking.queue.dropWhile past
       slip := run } ∧
     (alarm → t.pendingOnAll .trackSlip L.slipAlarm ∧ t.haltedBy s .trackSlip) ∧
     (¬alarm → t.control = s.control ∧ t.attention = s.attention)) ∧
  (∀ (L : Layout) (s : State),
     let past := fun c : CanRecord => decide (c.stage ≠ .weighed ∨
       (L.readerDistance : Int) + L.readerWindow < c.elapsed s.tracking.position)
     let required := fun c : CanRecord => ((s.store.recipeOf c.generation).map Recipe.codeRequired).getD false
     readPass L s = { s with tracking := { s.tracking with
       queue := (s.tracking.queue.takeWhile past).map (fun c => if c.stage = .weighed then
         { c with code := none, codeStatus := .noRead, stage := .read,
                  reasons := if required c = true then addReason .codeNoRead c.reasons else c.reasons } else c) ++
         s.tracking.queue.dropWhile past } }) ∧
  (∀ (L : Layout) (s : State),
     (s.tracking.queue = [] → wholeGatePass L s = s) ∧
     (∀ c rest, s.tracking.queue = c :: rest →
       (c.elapsed s.tracking.position < L.rejectDistance → wholeGatePass L s = s) ∧
       (L.rejectDistance ≤ c.elapsed s.tracking.position →
         wholeGatePass L s = wholeGatePass L (handOver L c { s with tracking := { s.tracking with queue := rest } })))) ∧
  (∀ s : State,
     let bound := fun (n : Serial) (c : CanRecord) => c.serial = n ∧ c.stage = .onPlatform
     let waits : State := { s with weigh := { s.weigh with platform := .waitClear } }
     ((∀ w, s.weigh.platform ≠ .dwell w) → endWithCause .bridged s = s) ∧
     (∀ w, s.weigh.platform = .dwell w →
       w.binding = none ∨ (∃ n, w.binding = some n ∧ ∀ c ∈ s.tracking.queue, ¬bound n c) →
       endWithCause .bridged s = waits) ∧
     (∀ w n ahead c rest, s.weigh.platform = .dwell w → w.binding = some n → s.tracking.queue = ahead ++ c :: rest →
       (∀ a ∈ ahead, ¬bound n a) → bound n c → ∃ rs,
       (∀ r, r ∈ rs ↔ r ∈ c.reasons ∨ r = .noReading ∨ (r = .probation ∧ c.origin = .filled ∧
         ∃ v left, c.valve = some v ∧ (s.valve v).state = .probation left)) ∧
       endWithCause .bridged s = { waits with tracking := { s.tracking with
         queue := ahead ++
           { c with reading := some (.noReading .bridged), stage := .weighed, reasons := rs } :: rest } }))

/-- A blocking edge of the eye. In RUN or HALT an arrival first marks the late FILLED records that it finds as the platform pass does
(R24), and then finds the oldest FILLED record. One within its platform window is claimed:
ON_PLATFORM, the slip run 0, and a weighing bound to its serial; nothing else changes (R22, R23, R37, R44, R48). In CONFIG or READY it
starts no weighing: from EMPTY the unit waits for the eye to clear, and a zero capture in progress is aborted with cause EYE and
CAL_DONE; in IDLE only the level is noted (R37, R60, R61). -/
def Obligations.EyeBlocks : Prop :=
  (∀ (L : Layout) (c : CanRecord) (ahead rest : List CanRecord) (s : State), s.resetHeld = false →
     s.control.state = .run ∨ s.control.state = .halt → s.store.layout = some L → s.weigh.platform = .empty →
     s.tracking.queue = ahead ++ c :: rest → (∀ a ∈ ahead, a.stage ≠ .filled) → c.stage = .filled →
     (L.platformDistance : Int) - L.platformWindow ≤ c.elapsed s.tracking.position →
     c.elapsed s.tracking.position ≤ (L.platformDistance : Int) + L.platformWindow →
     let w : Weighing := { binding := some c.serial, arrival := s.tracking.position, settle := s.cal.settleSkip,
                           buffer := [], mark := s.weigh.cellFault }
     exec .eyeBlockingEdge s = .next { s with
       pins := { s.pins with eye := true }
       tracking := { s.tracking with queue := ahead ++ { c with stage := .onPlatform } :: rest, slip := 0 }
       weigh := { s.weigh with platform := .dwell w } }) ∧
  (∀ (L : Layout) (s : State), s.resetHeld = false → s.control.state = .run ∨ s.control.state = .halt →
     s.store.layout = some L → s.weigh.platform = .empty →
     exec .eyeBlockingEdge s = exec .eyeBlockingEdge (platformPass L s)) ∧
  (∀ s : State, s.resetHeld = false → s.control.state = .config ∨ s.control.state = .ready →
     (s.weigh.platform = .empty → ¬(s.weigh.capture.outcome = .inProgress ∧ s.weigh.capture.kind = .zero) →
       exec .eyeBlockingEdge s = .next { s with
         pins := { s.pins with eye := true }, weigh := { s.weigh with platform := .waitClear } }) ∧
     (s.weigh.platform = .empty → s.weigh.capture.outcome = .inProgress → s.weigh.capture.kind = .zero →
       exec .eyeBlockingEdge s = .next (raiseOn .supervisor .calDone 4 { s with
         pins := { s.pins with eye := true }
         weigh := { s.weigh with
           platform := .waitClear
           capture := { s.weigh.capture with outcome := .calAborted, abortCause := some .eye } } })) ∧
     (s.weigh.platform = .idle → exec .eyeBlockingEdge s = .next { s with pins := { s.pins with eye := true } }))

/-- A platform arrival in RUN or HALT with no FILLED record, or with the oldest one still short of its window: with room in the
queue an orphan is made in its place, takes the can serial and adds to the slip run, and a weighing is bound to it; at a full
queue TRACK_OVERFLOW is raised with detail 0, a HALT reason, and the weighing is against nothing
(R25, R26, R27, R28, R29, R44). -/
def Obligations.ArrivalWithoutClaim : Prop :=
  ∀ (L : Layout) (ahead behind : List CanRecord) (s : State), s.resetHeld = false →
    s.control.state = .run ∨ s.control.state = .halt → s.store.layout = some L → s.weigh.platform = .empty →
    s.tracking.queue = ahead ++ behind → (∀ a ∈ ahead, a.stage ≠ .filled) →
    (behind = [] ∨ ∃ c rest, behind = c :: rest ∧ c.stage = .filled ∧
      c.elapsed s.tracking.position < (L.platformDistance : Int) - L.platformWindow) →
    let estimate := s.tracking.position - BitVec.ofNat 24 L.platformDistance
    let discharge := match ahead.getLast? with
      | some b => if 0 < posDiff b.discharge estimate then b.discharge else estimate
      | none => estimate
    let w : Weighing := { binding := none, arrival := s.tracking.position, settle := s.cal.settleSkip, buffer := [],
                          mark := s.weigh.cellFault }
    (s.tracking.queue.length < 192 → ∃ t, exec .eyeBlockingEdge s = .next t ∧
      t.tracking.queue = ahead ++
        { serial := s.tracking.serial, origin := .orphan, valve := none, generation := s.store.currentGeneration,
          discharge := discharge, doseUsed := none, fillStatus := .normal, stage := .onPlatform, reading := none,
          code := none, codeStatus := .notYet, reasons := [.orphan], verdict := none } :: behind ∧
      t.tracking.serial = s.tracking.serial + 1 ∧ t.tracking.slip = min 255 (s.tracking.slip + 1) ∧
      t.tracking.position = s.tracking.position ∧
      t.weigh = { s.weigh with platform := .dwell { w with binding := some s.tracking.serial } } ∧
      t.store = { s.store with current := s.store.current.map (fun h => { h with count := h.count + 1 }) } ∧
      t.dose = s.dose ∧ t.gate = s.gate ∧ t.canList = s.canList ∧ t.links = s.links ∧
      (s.tracking.slip < L.slipAlarm → L.slipAlarm ≤ min 255 (s.tracking.slip + 1) →
        t.pendingOnAll .trackSlip (min 255 (s.tracking.slip + 1) : Nat) ∧ t.haltedBy s .trackSlip) ∧
      (¬(s.tracking.slip < L.slipAlarm ∧ L.slipAlarm ≤ min 255 (s.tracking.slip + 1)) →
        t.control = s.control ∧ t.attention = s.attention)) ∧
    (192 ≤ s.tracking.queue.length → ∃ t, exec .eyeBlockingEdge s = .next t ∧ t.tracking = s.tracking ∧
      t.store = s.store ∧ t.dose = s.dose ∧
      t.weigh = { s.weigh with platform := .dwell w } ∧
      t.pendingOnAll .trackOverflow 0 ∧ t.haltedBy s .trackOverflow)

/-- FILL REPORT with NORMAL or SHORT in RUN or HALT, with room in the queue, makes one record at the tail, stamped with the lead's
position held back to the tail's; a BLOCKED valve gives it BLOCKED_FILL. The answer carries the serial, the valve's dose and its
state, and the dose is recorded as served (R7, R9, R11, R14, R16, R81, R103, R158). With VALVE_FAULT it blocks the valve, with holder
FILLER where it was not BLOCKED, and makes a BLOCKED_FILL record; the answer carries dose 0 and state BLOCKED (R12, R137). -/
def Obligations.FillReportMakesRecord : Prop :=
  (∀ (v d1 d0 code : Byte) (x : Position) (s : State),
     let p := [v, d1, d0, code]
     s.awaits ⟨.filler, Kind.fillReport.code, p, some x⟩ → s.control.state = .run ∨ s.control.state = .halt →
     1 ≤ v.toNat → v.toNat ≤ s.valveCount → code = 0 ∨ code = 1 → ¬(d1 = 0 ∧ d0 = 0) → s.tracking.queue.length < 192 →
     let blocked := (s.valve v.toNat).state.holder?.isSome
     let e : Valve := { s.valve v.toNat with lastDose := s.doseOf (s.valve v.toNat) }
     let c : CanRecord :=
       { serial := s.tracking.serial, origin := .filled, valve := some v.toNat,
         generation := s.store.currentGeneration,
         discharge := (match s.tracking.queue.getLast? with
           | some b => if 0 < posDiff b.discharge x then b.discharge else x
           | none => x),
         doseUsed := some (d1.toNat * 256 + d0.toNat),
         fillStatus := if blocked then .blockedFill else if code = 1 then .short else .normal, stage := .filled,
         reading := none, code := none, codeStatus := .notYet,
         reasons := if blocked then [.blockedFill] else if code = 1 then [.fillShort] else [], verdict := none }
     exec (.fillReport .filler p x) s = .next (answer .filler 0x01
       (.ok (1 :: u16 s.tracking.serial.toNat ++ u16 (s.doseOf (s.valve v.toNat)) ++ u8 (s.valve v.toNat).state.code))
       { s with
         tracking := { s.tracking with queue := s.tracking.queue ++ [c], serial := s.tracking.serial + 1 }
         store := { s.store with current := s.store.current.map (fun h => { h with count := h.count + 1 }) }
         dose := { s.dose with valves := s.dose.valves.set (v.toNat - 1) e } })) ∧
  (∀ (v d1 d0 : Byte) (x : Position) (s : State),
     let p := [v, d1, d0, 2]
     s.awaits ⟨.filler, Kind.fillReport.code, p, some x⟩ → s.control.state = .run ∨ s.control.state = .halt → s.tableWhole →
     1 ≤ v.toNat → v.toNat ≤ s.valveCount → ¬(d1 = 0 ∧ d0 = 0) → s.tracking.queue.length < 192 →
     let e : Valve :=
       { s.valve v.toNat with state := .blocked (((s.valve v.toNat).state.holder?).getD .filler), lastDose := 0 }
     ∃ t c, exec (.fillReport .filler p x) s = .next (answer .filler 0x01
         (.ok (1 :: u16 s.tracking.serial.toNat ++ [0, 0, 4])) t) ∧
       t.tracking = { s.tracking with queue := s.tracking.queue ++ [c], serial := s.tracking.serial + 1 } ∧
       c.valve = some v.toNat ∧ c.fillStatus = .blockedFill ∧ c.reasons = [.blockedFill] ∧ c.stage = .filled ∧
       c.origin = .filled ∧ c.doseUsed = some (d1.toNat * 256 + d0.toNat) ∧
       t.dose = { s.dose with valves := s.dose.valves.set (v.toNat - 1) e } ∧
       t.control = s.control ∧ t.attention = s.attention)

/-- FILL REPORT is refused with STATE outside RUN and HALT, and with RANGE for a valve not in use, a status that is none of the
four, or a can reported with no dose (R10). With NO_CAN it makes no record and raises nothing, whatever the queue holds; one that
needs a record at a full queue is answered QUEUE_FULL, makes none, and raises TRACK_OVERFLOW with the valve as detail, a HALT reason
(R9, R13, R15, R16); with VALVE_FAULT it blocks the valve all the same, with holder FILLER where it was not BLOCKED (R12, R137). -/
def Obligations.FillReportWithoutRecord : Prop :=
  (∀ (v d1 d0 code : Byte) (x : Position) (s : State),
     let p := [v, d1, d0, code]
     s.awaits ⟨.filler, Kind.fillReport.code, p, some x⟩ →
     (s.control.state = .config ∨ s.control.state = .ready →
       exec (.fillReport .filler p x) s = .next (answer .filler 0x01 (.refused .state) s)) ∧
     (s.control.state = .run ∨ s.control.state = .halt →
       v.toNat < 1 ∨ s.valveCount < v.toNat ∨ 3 < code.toNat ∨ (code ≠ 3 ∧ d1 = 0 ∧ d0 = 0) →
       exec (.fillReport .filler p x) s = .next (answer .filler 0x01 (.refused .range) s))) ∧
  (∀ (v d1 d0 code : Byte) (x : Position) (s : State),
     let p := [v, d1, d0, code]
     s.awaits ⟨.filler, Kind.fillReport.code, p, some x⟩ → s.control.state = .run ∨ s.control.state = .halt →
     1 ≤ v.toNat → v.toNat ≤ s.valveCount →
     let e : Valve := { s.valve v.toNat with lastDose := s.doseOf (s.valve v.toNat) }
     let figures := u16 (s.doseOf (s.valve v.toNat)) ++ u8 (s.valve v.toNat).state.code
     (code = 3 → exec (.fillReport .filler p x) s = .next (answer .filler 0x01 (.ok ([0, 0, 0] ++ figures))
       { s with dose := { s.dose with valves := s.dose.valves.set (v.toNat - 1) e } })) ∧
     (code = 0 ∨ code = 1 → ¬(d1 = 0 ∧ d0 = 0) → 192 ≤ s.tracking.queue.length →
       ∃ t, exec (.fillReport .filler p x) s = .next (answer .filler 0x01
           { status := .queueFull, payload := [0, 0, 0] ++ figures } t) ∧
         t.tracking = s.tracking ∧ t.store = s.store ∧ t.canList = s.canList ∧
         t.dose = { s.dose with valves := s.dose.valves.set (v.toNat - 1) e } ∧
         t.pendingOnAll .trackOverflow v.toNat ∧ t.haltedBy s .trackOverflow)) ∧
  (∀ (v d1 d0 : Byte) (x : Position) (s : State),
     let p := [v, d1, d0, 2]
     s.awaits ⟨.filler, Kind.fillReport.code, p, some x⟩ → s.control.state = .run ∨ s.control.state = .halt → s.tableWhole →
     1 ≤ v.toNat → v.toNat ≤ s.valveCount → ¬(d1 = 0 ∧ d0 = 0) → 192 ≤ s.tracking.queue.length →
     let e : Valve :=
       { s.valve v.toNat with state := .blocked (((s.valve v.toNat).state.holder?).getD .filler), lastDose := 0 }
     ∃ t, exec (.fillReport .filler p x) s = .next (answer .filler 0x01
         { status := .queueFull, payload := [0, 0, 0, 0, 0, 4] } t) ∧
       t.tracking = s.tracking ∧ t.store = s.store ∧ t.canList = s.canList ∧
       t.dose = { s.dose with valves := s.dose.valves.set (v.toNat - 1) e } ∧
       t.pendingOnAll .trackOverflow v.toNat ∧ t.haltedBy s .trackOverflow)

/-- FLUSH, as a request or as line command 4, empties the queue in READY, RUN and HALT: every record passes to the can list in
queue order with the verdict FLUSHED, none of them pending, CAN_LIST_LEVEL raised once where the count comes to its level, and a
weighing in progress is discarded; a previous recipe is retired with RECIPE_RETIRED, and the current recipe's count is 0; the gate,
the doses, the operating state and the position stay (R31, R53, R87, R93, R94, R96, R158, R162). In CONFIG the request is refused with STATE and the line command is
ignored (R31, R179). -/
def Obligations.FlushEmptiesTheQueue : Prop :=
  (∀ s : State, s.control.state = .config →
    (s.awaits ⟨.supervisor, Kind.flush.code, [], none⟩ →
      exec (.flush .supervisor []) s = .next (answer .supervisor 0x0F (.refused .state) s)) ∧
    (s.resetHeld = false → s.control.decoder = .space 4 → ms 40 ≤ s.spell → exec .lineFlush s = .next { s with control :=
      { s.control with decoder := .idle, lastCommand := some { number := 4, taken := false } } })) ∧
  ∀ s : State, s.resetHeld = false → s.control.state ≠ .config → s.canList.ring.length ≤ 256 →
    s.canList.unread ≤ s.canList.ring.length →
    let flushed := fun t : State => t.tracking = { s.tracking with queue := [] } ∧ t.dose = s.dose ∧ t.gate = s.gate ∧
      t.flushedList s ∧ (s.generationsAgree → t.att .supervisor = s.attRetired ∧ t.store = { s.store with
        previous := none, current := s.store.current.map (fun h => { h with count := 0 }) }) ∧
      ((∃ w, s.weigh.platform = .dwell w) → t.weigh = { s.weigh with platform := .waitClear }) ∧
      ((∀ w, s.weigh.platform ≠ .dwell w) → t.weigh = s.weigh) ∧ t.code = s.code ∧ t.links = s.links ∧ t.pins = s.pins
    (s.awaits ⟨.supervisor, Kind.flush.code, [], none⟩ →
      ∃ t, exec (.flush .supervisor []) s =
          .next (answer .supervisor 0x0F (.ok (u8 s.control.state.code)) t) ∧ flushed t ∧ t.control = s.control) ∧
    (s.control.decoder = .space 4 → ms 40 ≤ s.spell →
      ∃ t, exec .lineFlush s = .next t ∧ flushed t ∧ t.control =
        { s.control with decoder := .idle, lastCommand := some { number := 4, taken := true } })

/-! ## Weighing (chapter 2) -/

/-- A rising edge that is waited for begins a conversion (R39). A conversion that completes valid in DWELL becomes the latest
frequency and ends the cell fault run; while the settle count stands above 0 it is skipped; after that its gross weight joins the
buffer of the newest 24, unless the weight had to be held at a bound (R41, R42, R43, R45). Invalid conversions, by a frequency out of
the band or by overflow, add to the cell fault run; the eighth in a row makes the condition present, marks a weighing in progress
and raises CELL_FAULT with its mark as detail, a HALT reason (R40, R41, R42, R48). That the counter overflows in the wait after a drop
too (log entry 11), and that a count of 0 ticks is out of the band (log entry 10), are the model's. -/
def Obligations.ConversionsValidAndInvalid : Prop :=
  (∀ s : State, s.resetHeld = false → s.weigh.conversion = .waiting →
     exec .conversionStart s = .next { s with weigh := { s.weigh with conversion := .running, period := 0 } }) ∧
  (∀ (w : Weighing) (z x : Nat) (s : State), s.resetHeld = false → s.weigh.conversion = .running →
     s.weigh.platform = .dwell w → s.weigh.fz = some z → s.weigh.span = some x → w.buffer.length ≤ 24 →
     let n := s.cal.periodSetting * 200000000
     let f := (2 * n + s.weigh.period) / (2 * s.weigh.period)
     200000 ≤ f → f ≤ 600000 →
     let gross := roundAway (((f : Int) ^ 2 - (z : Int) ^ 2) * x) 4294967296
     let w' : Weighing :=
       if 0 < w.settle then { w with settle := w.settle - 1 }
       else if gross < -20000 ∨ 250000 < gross then w
       else { w with buffer := (w.buffer ++ [gross]).drop (w.buffer.length + 1 - 24) }
     exec .conversionComplete s = .next { s with weigh := { s.weigh with
       period := 0, latest := some f, cellRun := 0, cellFault := false, platform := .dwell w' } }) ∧
  (∀ s : State, s.resetHeld = false →
     let n := s.cal.periodSetting * 200000000
     let f := (2 * n + s.weigh.period) / (2 * s.weigh.period)
     let eighth := fun (detail : Int) (c : Conversion) (t : State) =>
       t.weigh = { s.weigh with period := 0, conversion := c, cellRun := 8, cellFault := true,
                                platform := s.weigh.platform.marked } ∧
       t.pendingOnAll .cellFault detail ∧ t.haltedBy s .cellFault ∧ t.tracking = s.tracking ∧ t.dose = s.dose
     (∀ w, Platform.marked (.dwell w) = .dwell { w with mark := true }) ∧
     (s.weigh.conversion = .running → f < 200000 ∨ 600000 < f →
       (s.weigh.cellRun ≠ 7 → exec .conversionComplete s =
         .next { s with weigh := { s.weigh with period := 0, cellRun := min 255 (s.weigh.cellRun + 1) } }) ∧
       (s.weigh.cellRun = 7 → ∃ t, exec .conversionComplete s = .next t ∧ eighth 2 .running t)) ∧
     (s.weigh.conversion ≠ .stopped → 65535 ≤ s.weigh.period →
       (s.weigh.cellRun ≠ 7 → exec .conversionOverflow s = .next { s with weigh := { s.weigh with
         period := 0, conversion := .waiting, cellRun := min 255 (s.weigh.cellRun + 1) } }) ∧
       (s.weigh.cellRun = 7 → ∃ t, exec .conversionOverflow s = .next t ∧ eighth 1 .waiting t)))

/-- Zero tracking (R54): a valid conversion in EMPTY, after the zero settle count is full, with no capture in progress and the
zero state NORMAL, moves fz by d ÷ 2^k rounded where |d| is within the zero band; beyond it the zero run gains one, and at 16
ZERO_LOST is raised with d limited to ±32,767 and the zero state becomes ZERO_FAULT. The step keeps fz within 200,000 … 600,000. A
valid conversion before the count is full only adds to it, with no span capture in progress (R54, R57), and in ZERO_FAULT none
moves fz. -/
def Obligations.ZeroTrackingStep : Prop :=
  (∀ (z : Nat) (s : State), s.resetHeld = false → s.weigh.conversion = .running → s.weigh.platform = .empty →
    s.weigh.zeroState = .normal → s.weigh.capture.outcome ≠ .inProgress → s.weigh.fz = some z →
    s.cal.zeroSettle ≤ s.weigh.settleCount →
    let f := (2 * (s.cal.periodSetting * 200000000) + s.weigh.period) / (2 * s.weigh.period)
    200000 ≤ f → f ≤ 600000 →
    let d : Int := (f : Int) - z
    let moved := ((z : Int) + roundAway d (2 ^ s.cal.zeroRate)).toNat
    let taken : WeighUnit := { s.weigh with period := 0, latest := some f, cellRun := 0, cellFault := false }
    (d.natAbs ≤ s.cal.zeroBand → exec .conversionComplete s =
      .next { s with weigh := { taken with fz := some moved, zeroRun := 0 } }) ∧
    (200000 ≤ z → z ≤ 600000 → 1 ≤ s.cal.zeroRate → 200000 ≤ moved ∧ moved ≤ 600000) ∧
    (s.cal.zeroBand < d.natAbs → s.weigh.zeroRun < 15 → exec .conversionComplete s =
      .next { s with weigh := { taken with zeroRun := s.weigh.zeroRun + 1 } }) ∧
    (s.cal.zeroBand < d.natAbs → 15 ≤ s.weigh.zeroRun → exec .conversionComplete s =
      .next (raiseAll .zeroLost (max (-32767) (min 32767 d))
        { s with weigh := { taken with zeroRun := 16, zeroState := .zeroFault } }))) ∧
  (∀ s : State, s.resetHeld = false → s.weigh.conversion = .running → s.weigh.platform = .empty →
    let f := (2 * (s.cal.periodSetting * 200000000) + s.weigh.period) / (2 * s.weigh.period)
    200000 ≤ f → f ≤ 600000 →
    let taken : WeighUnit := { s.weigh with period := 0, latest := some f, cellRun := 0, cellFault := false }
    (s.weigh.settleCount < s.cal.zeroSettle → ¬(s.weigh.capture.outcome = .inProgress ∧ s.weigh.capture.kind ≠ .zero) →
      exec .conversionComplete s = .next { s with weigh := { taken with settleCount := s.weigh.settleCount + 1 } }) ∧
    (s.cal.zeroSettle ≤ s.weigh.settleCount → s.weigh.capture.outcome ≠ .inProgress → s.weigh.zeroState = .zeroFault →
      exec .conversionComplete s = .next { s with weigh := taken }))

/-- ZERO CAPTURE, as a request or as line command 5, and SPAN CAPTURE (R56, R60, R61, R179): STATE, or
ignored, outside READY, BUSY while a capture is in progress, and RANGE for a test
mass outside 1,000 … 250,000; else the capture starts with a count of 0. A zero capture started with the platform state at
WAIT_CLEAR is aborted at once with cause EYE and CAL_DONE raised. -/
def Obligations.CaptureRequests : Prop :=
  (∀ s : State, s.awaits ⟨.supervisor, Kind.zeroCapture.code, [], none⟩ →
    let begun : Capture := { kind := .zero, outcome := .inProgress, count := 0, sum := 0, mean := none, testMass := none,
                             newValue := none, abortCause := none }
    (s.control.state ≠ .ready → exec (.zeroCapture .supervisor []) s =
      .next (answer .supervisor 0x14 (.refused .state) s)) ∧
    (s.control.state = .ready → s.weigh.capture.outcome = .inProgress → exec (.zeroCapture .supervisor []) s =
      .next (answer .supervisor 0x14 (.refused .busy) s)) ∧
    (s.control.state = .ready → s.weigh.capture.outcome ≠ .inProgress → s.weigh.platform ≠ .waitClear →
      exec (.zeroCapture .supervisor []) s =
        .next (answer .supervisor 0x14 (.ok []) { s with weigh := { s.weigh with capture := begun } })) ∧
    (s.control.state = .ready → s.weigh.capture.outcome ≠ .inProgress → s.weigh.platform = .waitClear →
      exec (.zeroCapture .supervisor []) s = .next (answer .supervisor 0x14 (.ok []) (raiseOn .supervisor .calDone 4
        { s with weigh := { s.weigh with
          capture := { begun with outcome := .calAborted, abortCause := some .eye } } })))) ∧
  (∀ (b2 b1 b0 : Byte) (s : State), s.awaits ⟨.supervisor, Kind.spanCapture.code, [b2, b1, b0], none⟩ →
    let mass := (b2.toNat * 256 + b1.toNat) * 256 + b0.toNat
    (s.control.state ≠ .ready → exec (.spanCapture .supervisor [b2, b1, b0]) s =
      .next (answer .supervisor 0x15 (.refused .state) s)) ∧
    (s.control.state = .ready → s.weigh.capture.outcome = .inProgress →
      exec (.spanCapture .supervisor [b2, b1, b0]) s = .next (answer .supervisor 0x15 (.refused .busy) s)) ∧
    (s.control.state = .ready → s.weigh.capture.outcome ≠ .inProgress → mass < 1000 ∨ 250000 < mass →
      exec (.spanCapture .supervisor [b2, b1, b0]) s = .next (answer .supervisor 0x15 (.refused .range) s)) ∧
    (s.control.state = .ready → s.weigh.capture.outcome ≠ .inProgress → 1000 ≤ mass → mass ≤ 250000 →
      exec (.spanCapture .supervisor [b2, b1, b0]) s = .next (answer .supervisor 0x15 (.ok []) { s with
        weigh := { s.weigh with capture :=
          { kind := .span, outcome := .inProgress, count := 0, sum := 0, mean := none, testMass := some mass,
            newValue := none, abortCause := none } } }))) ∧
  (∀ s : State, s.resetHeld = false → s.control.decoder = .space 5 → ms 40 ≤ s.spell →
    let ends := fun taken : Bool =>
      { s.control with decoder := .idle, lastCommand := some { number := 5, taken := taken } }
    (s.control.state ≠ .ready ∨ s.weigh.capture.outcome = .inProgress →
      exec .lineZeroCapture s = .next { s with control := ends false }) ∧
    (s.control.state = .ready → s.weigh.capture.outcome ≠ .inProgress → s.weigh.platform ≠ .waitClear →
      exec .lineZeroCapture s = .next { s with
        control := ends true
        weigh := { s.weigh with capture := { kind := .zero, outcome := .inProgress, count := 0, sum := 0, mean := none,
                                             testMass := none, newValue := none, abortCause := none } } }) ∧
    (s.control.state = .ready → s.weigh.capture.outcome ≠ .inProgress → s.weigh.platform = .waitClear →
      exec .lineZeroCapture s = .next (raiseOn .supervisor .calDone 4 { s with
        control := ends true
        weigh := { s.weigh with
          capture := { kind := .zero, outcome := .calAborted, count := 0, sum := 0, mean := none, testMass := none,
                       newValue := none, abortCause := some .eye } } })))

/-- A capture takes the valid conversions of its kind: a zero capture those in EMPTY after the zero settle count is full, a span
capture those in EMPTY and in WAIT_CLEAR (R57). Below the 64th it counts and sums; the 64th completes it, and CAL_DONE is raised on the
supervisor link (R57, R58, R59, R61, R153). A zero capture sets fz, the record's zero figure and the zero state; a span capture sets the
span from the test mass where the load figure and the span are in range, and else ends CAL_RANGE with nothing set. -/
def Obligations.CaptureCompletes : Prop :=
  ∀ (z : Nat) (s : State), s.resetHeld = false → s.weigh.conversion = .running →
    s.weigh.fz = some z → s.weigh.capture.outcome = .inProgress →
    (s.weigh.capture.kind = .zero ∧ s.weigh.platform = .empty ∧ s.cal.zeroSettle ≤ s.weigh.settleCount) ∨
      (s.weigh.capture.kind = .span ∧ (s.weigh.platform = .empty ∨ s.weigh.platform = .waitClear)) →
    let f := (2 * (s.cal.periodSetting * 200000000) + s.weigh.period) / (2 * s.weigh.period)
    200000 ≤ f → f ≤ 600000 →
    (s.weigh.capture.count + 1 < 64 → exec .conversionComplete s = .next { s with weigh := { s.weigh with
      period := 0, latest := some f, cellRun := 0, cellFault := false
      settleCount := if s.weigh.platform = .empty ∧ s.weigh.settleCount < s.cal.zeroSettle then s.weigh.settleCount + 1
        else s.weigh.settleCount
      capture := { s.weigh.capture with
        count := s.weigh.capture.count + 1, sum := s.weigh.capture.sum + f } } }) ∧
    (s.weigh.capture.count = 63 →
    let m := (2 * (s.weigh.capture.sum + f) + 64) / 128
    let load : Int := (m : Int) ^ 2 - (z : Int) ^ 2
    let span := roundAway (((s.weigh.capture.testMass.getD 0 : Nat) : Int) * 4294967296) load.toNat
    (s.weigh.capture.kind = .zero → ∃ t, exec .conversionComplete s = .next t ∧ t.weigh.fz = some m ∧
      t.weigh.zeroState = .normal ∧ t.weigh.zeroRun = 0 ∧ t.weigh.span = s.weigh.span ∧
      t.weigh.capture.outcome = .calOk ∧ t.weigh.capture.count = 64 ∧ t.weigh.capture.newValue = some m ∧
      t.store = { s.store with calibration := s.store.calibration.map (fun k => { k with zeroFigure := m }) } ∧
      { cause := .calDone, detail := 2 } ∈ (t.att .supervisor).pending ∧ t.att .filler = s.att .filler ∧
      t.att .quality = s.att .quality ∧ t.control = s.control ∧ t.dose = s.dose ∧ t.tracking = s.tracking) ∧
    (s.weigh.capture.kind = .span → 0 < load → 1 ≤ span → span ≤ 16777215 →
      ∃ t, exec .conversionComplete s = .next t ∧ t.weigh.span = some span.toNat ∧ t.weigh.fz = s.weigh.fz ∧
        t.weigh.zeroState = s.weigh.zeroState ∧ t.weigh.capture.outcome = .calOk ∧
        t.weigh.capture.newValue = some span.toNat ∧
        t.store = { s.store with calibration := s.store.calibration.map (fun k => { k with span := span.toNat }) } ∧
        { cause := .calDone, detail := 2 } ∈ (t.att .supervisor).pending) ∧
    (s.weigh.capture.kind = .span → load ≤ 0 ∨ span < 1 ∨ 16777215 < span →
      ∃ t, exec .conversionComplete s = .next t ∧ t.weigh.span = s.weigh.span ∧ t.weigh.fz = s.weigh.fz ∧
        t.weigh.zeroState = s.weigh.zeroState ∧ t.weigh.capture.outcome = .calRange ∧ t.store = s.store ∧
        { cause := .calDone, detail := 3 } ∈ (t.att .supervisor).pending))

/-- A clearing edge of the eye. In WAIT_CLEAR the unit enters EMPTY with the zero settle count restarted (R38). In DWELL the
weighing ends by departure: the reading is decided in the order of R49 and posted to the bound record, which becomes WEIGHED, and a
VALID one of a FILLED record that R106 admits makes a control update, with the causes it raises; any other reading, one of an orphan
among them, leaves the dose unit and the attention states; no other record changes (R27, R38, R46, R49, R50, R51, R106). The
reasons after the post are those of R82: NO_READING, UNDERWEIGHT and OVERWEIGHT by the recipe of the record, and PROBATION by its valve.
A weighing against nothing, or whose record is not ON_PLATFORM in the queue, posts nothing. -/
def Obligations.EyeClears : Prop :=
  ∀ s : State, s.resetHeld = false →
    (s.weigh.platform = .waitClear → exec .eyeClearingEdge s = .next { s with
      pins := { s.pins with eye := false }, weigh := { s.weigh with platform := .empty, settleCount := 0 } }) ∧
    (∀ w, s.weigh.platform = .dwell w → w.binding = none ∨ (∃ n, w.binding = some n ∧
        ∀ c ∈ s.tracking.queue, ¬(c.serial = n ∧ c.stage = .onPlatform)) → exec .eyeClearingEdge s = .next { s with
      pins := { s.pins with eye := false }
      weigh := { s.weigh with platform := .empty, settleCount := 0, conversion := .waiting, period := 0 } }) ∧
    (∀ w n ahead c rest, s.weigh.platform = .dwell w → w.binding = some n → s.tracking.queue = ahead ++ c :: rest →
      (∀ a ∈ ahead, ¬(a.serial = n ∧ a.stage = .onPlatform)) → c.serial = n → c.stage = .onPlatform →
      let kept := w.buffer.take (w.buffer.length - s.cal.tailDrop)
      let gross := roundAway kept.sum kept.length
      let tare : Int := ((s.store.recipeOf c.generation).map Recipe.tareNominal).getD 0
      let rd : Reading :=
        if s.weigh.zeroState = .zeroFault then .noReading .zeroLost
        else if w.mark = true then .noReading .cellFault
        else if kept.length < s.cal.minCount then .noReading .tooFew
        else .valid gross (gross - tare)
      ∃ t rs, exec .eyeClearingEdge s = .next t ∧
        t.tracking = { s.tracking with
          queue := ahead ++ { c with reading := some rd, stage := .weighed, reasons := rs } :: rest } ∧
        t.weigh = { s.weigh with platform := .empty, settleCount := 0, conversion := .waiting, period := 0 } ∧
        t.store = s.store ∧ t.gate = s.gate ∧ t.canList = s.canList ∧ t.control = s.control ∧ t.links = s.links ∧
        (∀ r, r ∈ rs ↔ r ∈ c.reasons ∨ (r = .noReading ∧ ∃ x, rd = .noReading x) ∨
          (r = .underweight ∧ rd = .valid gross (gross - tare) ∧ ∃ k, s.store.recipeOf c.generation = some k ∧
            gross - tare < (k.targetNet : Int) - k.tolUnder) ∨
          (r = .overweight ∧ rd = .valid gross (gross - tare) ∧ ∃ k, s.store.recipeOf c.generation = some k ∧
            (k.targetNet : Int) + k.tolOver < gross - tare) ∨
          (r = .probation ∧ c.origin = .filled ∧ ∃ v left, c.valve = some v ∧ (s.valve v).state = .probation left)) ∧
        ((∃ x, rd = .noReading x) ∨ c.origin = .orphan ∨ c.valve = none ∨ s.store.current = none →
          t.dose = s.dose ∧ t.attention = s.attention) ∧
        (∀ v h, c.origin = .filled → c.valve = some v → rd = .valid gross (gross - tare) → s.store.current = some h →
          (h.generation = c.generation ∧ c.fillStatus = .normal ∧ (s.valve v).state.steered = true ∧ s.frozen = false →
            t.dose = (controlUpdate h.recipe v (gross - tare) s).dose ∧
            t.attention = (controlUpdate h.recipe v (gross - tare) s).attention) ∧
          (¬(h.generation = c.generation ∧ c.fillStatus = .normal ∧ (s.valve v).state.steered = true ∧
              s.frozen = false) → t.dose = s.dose ∧ t.attention = s.attention)))

/-! ## Lid codes (chapter 3) -/

/-- The flags of a character are those of R182. An entry from the reader (R63, R64, R70): a character, or the gap entry of a silence of
more than 3 character times, is stored with its flags, its stamp and the overrun flag after a loss, and at level 96 from OPEN one
Xoff is placed; at a full FIFO either is lost, marked for the next. The silence after a stored character is watched but for an error-free carriage return.
Nothing outside the reader link and the flow state changes. The 67 half bits of silence, counted from the middle of the stop bit, and
the end of the watch at a lost entry are the model's reading of R64 (log entry 12). -/
def Obligations.ReaderEntryStored : Prop :=
  (∀ (data : Byte) (parityBit stopBit lost : Bool) (x : Option Position),
     let e := entryOf data parityBit stopBit lost x
     let ones := (List.range 8).countP (fun i => data.getLsbD i) + (if parityBit then 1 else 0)
     e.char = some data ∧ e.overrun = lost ∧ e.stamp = x ∧ (e.parity = true ↔ ones % 2 = 1) ∧
     (e.framing = true ↔ stopBit = false ∧ data ≠ 0) ∧
     (e.brk = true ↔ data = 0 ∧ parityBit = false ∧ stopBit = false)) ∧
  (∀ (data : Byte) (parityBit stopBit : Bool) (s : State), s.resetHeld = false →
     let rx := s.reader.rx
     let stored := fun (e : Entry) (t : State) =>
       t.reader.rx.fifo = rx.fifo ++ [e] ∧ t.reader.rx.lost = false ∧
       (rx.fifo.length = 95 ∧ s.code.flow = .opened →
         t.reader.tx.fifo = s.reader.tx.fifo ++ [0x13] ∧ t.code = { s.code with flow := .held }) ∧
       (¬(rx.fifo.length = 95 ∧ s.code.flow = .opened) → t.reader.tx = s.reader.tx ∧ t.code = s.code)
     let same := fun t : State => t = { s with reader := t.reader, code := t.code }
     (rx.breakLow = false → rx.fifo.length < 128 →
       let e := entryOf data parityBit stopBit rx.lost (some s.tracking.position)
       ∃ t, exec (.readerCharacterReceived data parityBit stopBit) s = .next t ∧ same t ∧ stored e t ∧
         t.reader.rx.silence = if data = 0x0D ∧ e.parity = false ∧ e.framing = false ∧ e.brk = false ∧ rx.lost = false
           then none else some s.now) ∧
     (rx.breakLow = false → 128 ≤ rx.fifo.length →
       exec (.readerCharacterReceived data parityBit stopBit) s = .next { s with
         reader := { s.reader with rx := { rx with lost := true, silence := none } } }) ∧
     (∀ since, rx.silence = some since → 67 * 20000000 < 2 * linkSpeed s.reader.straps * (s.now - since) →
       rx.fifo.length < 128 → ∃ t, exec .readerGapEntry s = .next t ∧ same t ∧ t.reader.rx.silence = none ∧
         stored { char := none, parity := false, framing := false, brk := false, overrun := rx.lost,
                  stamp := some s.tracking.position } t) ∧
     (∀ since, rx.silence = some since → 67 * 20000000 < 2 * linkSpeed s.reader.straps * (s.now - since) →
       128 ≤ rx.fifo.length → exec .readerGapEntry s = .next { s with
         reader := { s.reader with rx := { rx with lost := true, silence := none } } }))

/-- The message assembler takes one entry (R65 to R69, R71): its next state and the message it completes, by the kind of the entry;
at level 32 from HELD one Xon is placed. -/
def Obligations.ReaderEntryTaken : Prop :=
  ∀ (e : Entry) (rest : List Entry) (s : State), s.resetHeld = false → s.code.message = none →
    s.reader.rx.fifo = e :: rest →
    let goes := fun (a : MessageAssembler) (m : Option Message) =>
      ∃ t, exec .readerEntryTaken s = .next t ∧ t = { s with reader := t.reader, code := t.code } ∧
        t.reader.rx = { s.reader.rx with fifo := rest } ∧ t.code.assembler = a ∧ t.code.message = m ∧
        t.code.stray = s.code.stray ∧
        (rest.length = 32 ∧ s.code.flow = .held →
          t.reader.tx.fifo = s.reader.tx.fifo ++ [0x11] ∧ t.code.flow = .opened) ∧
        (¬(rest.length = 32 ∧ s.code.flow = .held) → t.reader.tx = s.reader.tx ∧ t.code.flow = s.code.flow)
    let garbled := some { text := none, stamp := e.stamp.getD 0 }
    let clean := fun c => e.char = some c ∧ e.parity = false ∧ e.framing = false ∧ e.brk = false ∧ e.overrun = false
    let text := fun c : Byte => 0x20 ≤ c.toNat ∧ c.toNat ≤ 0x7E
    (s.code.assembler = .idle →
      (∀ c, clean c → text c → goes (.collecting [c]) none) ∧ (∀ c, clean c → ¬text c → goes .idle none) ∧
      (e.char = none → goes .idle none) ∧ (e.char ≠ none → (¬∃ c, clean c) → goes .discard garbled)) ∧
    (∀ m, s.code.assembler = .collecting m →
      (∀ c, clean c → text c → m.length < 24 → goes (.collecting (m ++ [c])) none) ∧
      (∀ c, clean c → text c → 24 ≤ m.length → goes .discard garbled) ∧
      (clean 0x0D → goes .idle (some { text := some m, stamp := e.stamp.getD 0 })) ∧
      (∀ c, clean c → ¬text c → c ≠ 0x0D → goes .discard garbled) ∧
      ((¬∃ c, clean c) → goes .discard garbled)) ∧
    (s.code.assembler = .discard → (clean 0x0D → goes .idle none) ∧ (¬clean 0x0D → goes .discard none))

/-- A code matches a pattern when both have the same number of characters and every character of the code agrees with the pattern
character at its place: `?` with any printable character, `#` with a digit, any other with itself. A code that matches gives code
status MATCH, and one that does not gives MISMATCH (R77). -/
def Obligations.CodeMatchesPattern : Prop :=
  (∀ q t : List Byte, codeMatches q t = true ↔
    q.length = t.length ∧ ∀ i, ∀ (h : i < q.length) (h' : i < t.length),
      (q[i] = 0x3F → 0x20 ≤ (t[i]).toNat ∧ (t[i]).toNat ≤ 0x7E) ∧
      (q[i] = 0x23 → 0x30 ≤ (t[i]).toNat ∧ (t[i]).toNat ≤ 0x39) ∧
      (q[i] ≠ 0x3F → q[i] ≠ 0x23 → t[i] = q[i])) ∧
  (∀ q t : List Byte, t ≠ [0x3F] →
    codeOf (some q) (some t) = (some t, if codeMatches q t = true then .matched else .mismatch))

/-- A completed message is judged at its stamp (R73, R75, R76, R83): matched to the oldest WEIGHED record where that lies in the
reader window, it sets the code, the code status, the stage and the code reason by the record's own recipe; with no WEIGHED record,
or the oldest still short of the window, it is stray and counted. The WEIGHED records overdue at the stamp are first set to READ with
NOREAD, oldest first, up to the first that is not (R74). No other record changes. -/
def Obligations.MessageIsMatched : Prop :=
  ∀ (L : Layout) (m : Message) (s : State), s.resetHeld = false → s.store.layout = some L → s.code.message = some m →
    let stray : State := { s with code := { s.code with message := none, stray := min 65535 (s.code.stray + 1) } }
    let past := fun c : CanRecord => decide (c.stage ≠ .weighed ∨
      (L.readerDistance : Int) + L.readerWindow < c.elapsed m.stamp)
    let skipped := fun c : CanRecord => if c.stage = .weighed then
      { c with code := none, codeStatus := .noRead, stage := .read
               reasons := if ((s.store.recipeOf c.generation).map Recipe.codeRequired).getD false = true
                 then addReason .codeNoRead c.reasons else c.reasons } else c
    exec .messageMatch s = exec .messageMatch { s with tracking := { s.tracking with
      queue := (s.tracking.queue.takeWhile past).map skipped ++ s.tracking.queue.dropWhile past } } ∧
    ((∀ c ∈ s.tracking.queue, c.stage ≠ .weighed) → exec .messageMatch s = .next stray) ∧
    (∀ ahead c rest, s.tracking.queue = ahead ++ c :: rest → (∀ a ∈ ahead, a.stage ≠ .weighed) → c.stage = .weighed →
      (c.elapsed m.stamp < (L.readerDistance : Int) - L.readerWindow → exec .messageMatch s = .next stray) ∧
      ((L.readerDistance : Int) - L.readerWindow ≤ c.elapsed m.stamp →
        c.elapsed m.stamp ≤ (L.readerDistance : Int) + L.readerWindow →
        let r := s.store.recipeOf c.generation
        let pattern := r.bind Recipe.codePattern
        let got : Option (List Byte) × CodeStatus := match m.text with
          | none => (none, .garbled)
          | some t => if t = [0x3F] then (none, .noRead) else
            (some t, match pattern with
              | none => .notChecked
              | some q => if codeMatches q t then .matched else .mismatch)
        let required := (r.map Recipe.codeRequired).getD false
        let reasons : List Reason :=
          if got.2 = .mismatch then addReason .codeMismatch c.reasons
          else if required = true ∧ (got.2 = .noRead ∨ got.2 = .garbled) then addReason .codeNoRead c.reasons
          else c.reasons
        exec .messageMatch s = .next { s with
          code := { s.code with message := none }
          tracking := { s.tracking with queue := ahead ++
            { c with code := got.1, codeStatus := got.2, stage := .read, reasons := reasons } :: rest } }))

/-! ## Verdicts, the gate and the can list (chapter 4) -/

/-- The verdict is the reason present that stands highest in the order of R85, and ACCEPT where none is present; every reason but
MISSED drives the gate, and ACCEPT does not. At the gate it is decided from the record's reasons, the gate's own included, and passed
into the can summary. -/
def Obligations.VerdictIsHighestReason : Prop :=
  ([Reason.halted, .missed, .orphan, .blockedFill, .fillShort, .noReading, .undecided, .underweight, .overweight, .codeNoRead,
    .codeMismatch, .probation].map Reason.rank = [1, 2, 3, 4, 5, 6, 7, 8, 9, 10, 11, 12]) ∧
  (∀ rs : List Reason, (verdictOf rs = .accept ↔ rs = []) ∧
    (∀ r, verdictOf rs = .reason r ↔ r ∈ rs ∧ ∀ q ∈ rs, r.rank ≤ q.rank)) ∧
  (∀ v : Verdict, v.drives = true ↔ ∃ r, v = .reason r ∧ r ≠ .missed) ∧
  (∀ (L : Layout) (c : CanRecord) (s : State), ∃ rs : List Reason,
    (∀ r, r ∈ rs ↔ r ∈ c.reasons ∨ (r = .undecided ∧ (c.stage = .onPlatform ∨ c.stage = .weighed)) ∨
      (r = .halted ∧ s.control.state = .halt ∧ c.stage ≠ .missed)) ∧
    (handOver L c s).canList.ring.getLast?.map CanSummary.verdict = some (verdictOf rs) ∧
    ((verdictOf rs).drives = false → (handOver L c s).gate.drive = s.gate.drive) ∧
    ((verdictOf rs).drives = true → (handOver L c s).gate.drive = some (s.now + ms L.gatePulse)))

/-- The hand-over of a record at the gate (R84, R86, R87, R89 to R92, R94): the gate's reasons join, the verdict follows, a driving
verdict sets the pulse's end and opens a window, or is satisfied at once at an ACTIVE level, and the summary joins the can list as
the newest, pending while its window is open. With 32 windows open the oldest first closes as unconfirmed: its summary is flagged, the
run gains one, and from 2 to 3 REJECT_FAULT is raised, a HALT reason. CAN_LIST_LEVEL is raised on the quality link, and its flag
disarmed, where the summary takes the unread count to the level (R96); the count of the record's generation falls by one, and the
previous recipe is retired at its last record, with RECIPE_RETIRED on the supervisor link (R158, R162); no other cause is raised. The
counts of the record's valve, where it is not UNUSED, gain
one for a VALID reading and one for a drive; nothing else of the dose unit changes. -/
def Obligations.HandOverAtTheGate : Prop :=
  ∀ (L : Layout) (c : CanRecord) (s : State),
    let gates := (if c.stage = .onPlatform ∨ c.stage = .weighed then [Reason.undecided] else []) ++
      (if s.control.state = .halt ∧ c.stage ≠ .missed then [Reason.halted] else [])
    let d := c.withReasons gates
    let v := verdictOf d.reasons
    let t := handOver L c s
    let opened : Window := { serial := c.serial, expiry := s.now + ms L.confirmTime }
    let m := summaryOf d v (v.drives && !s.gate.confirmLevel)
    let joins := fun ring : List CanSummary =>
      s.canList.ring.length ≤ 256 → t.canList.ring = (ring ++ [m]).drop (ring.length + 1 - 256)
    let full := v.drives = true ∧ 32 ≤ s.gate.windows.length
    (v.drives = true → t.gate.drive = some (s.now + ms L.gatePulse) ∧
      (s.gate.confirmLevel = true → t.gate.unconfirmed = 0) ∧
      (s.gate.confirmLevel = false → t.gate.windows.getLast? = some opened) ∧
      (s.gate.confirmLevel = false → s.gate.windows.length < 32 → t.gate = { s.gate with
        drive := some (s.now + ms L.gatePulse), windows := s.gate.windows ++ [opened] }) ∧
      (∀ w rest, s.gate.confirmLevel = false → s.gate.windows = w :: rest → 32 ≤ s.gate.windows.length →
        t.gate = { s.gate with drive := some (s.now + ms L.gatePulse), windows := rest ++ [opened]
                               unconfirmed := min 255 (s.gate.unconfirmed + 1) } ∧
        joins (s.canList.ring.map (fun x =>
          if x.serial = w.serial ∧ x.awaiting = true then { x with awaiting := false, unconfirmed := true } else x)) ∧
        (s.gate.unconfirmed = 2 → t.pendingOnAll .rejectFault w.serial.toNat ∧ t.haltedBy s .rejectFault) ∧
        (s.gate.unconfirmed ≠ 2 → t.control = s.control))) ∧
    (v.drives = false → t.gate = s.gate) ∧ t.gate.confirmLevel = s.gate.confirmLevel ∧
    t.canList.ring.getLast? = some m ∧ (¬full → joins s.canList.ring ∧ t.control = s.control) ∧
    (c.valve = none → t.dose = s.dose) ∧
    (∀ u, c.valve = some u → (s.valve u).state = .unused → t.dose = s.dose) ∧
    (∀ u, c.valve = some u → (s.valve u).state ≠ .unused → t.dose = { s.dose with
      valves := s.dose.valves.set (u - 1) { s.valve u with
        weighed := match c.reading with
          | some (.valid _ _) => min 4294967295 ((s.valve u).weighed + 1)
          | _ => (s.valve u).weighed
        rejected := if v.drives = true then min 4294967295 ((s.valve u).rejected + 1) else (s.valve u).rejected } }) ∧
    t.tracking = s.tracking ∧ t.weigh = s.weigh ∧ t.code = s.code ∧ t.links = s.links ∧
    (s.canList.ring.length ≤ 256 → s.canList.unread ≤ s.canList.ring.length →
      let n := s.canList.unread + 1
      let reached := s.canList.armed = true ∧ s.canList.unread < 256 ∧ s.canList.level ≤ n
      let closed : State := match s.gate.windows with
        | w :: _ => if full ∧ s.gate.unconfirmed = 2 then
            let u := raiseAll .rejectFault w.serial.toNat s
            if s.control.state = .run then raiseAll .haltEntered Cause.rejectFault.code u else u
          else s
        | [] => s
      t.canList.unread = min 256 n ∧ t.canList.level = s.canList.level ∧ t.att .filler = closed.att .filler ∧
      (reached → t.canList.armed = false ∧ t.att .quality = (closed.att .quality).raised s.now .canListLevel n) ∧
      (¬reached → t.canList.armed = s.canList.armed ∧ t.att .quality = closed.att .quality) ∧
      (∀ h, s.store.previous = some h → h.generation = c.generation → h.count ≤ 1 →
        t.store = { s.store with previous := none } ∧
        t.att .supervisor = (closed.att .supervisor).raised s.now .recipeRetired h.generation.toNat) ∧
      (∀ h, s.store.previous = some h → h.generation = c.generation → 1 < h.count →
        t.store = { s.store with previous := some { h with count := h.count - 1 } } ∧
        t.att .supervisor = closed.att .supervisor) ∧
      ((∀ h, s.store.previous = some h → h.generation ≠ c.generation) →
        t.store = { s.store with current := s.store.current.map (fun h =>
          if h.generation = c.generation then { h with count := h.count - 1 } else h) } ∧
        t.att .supervisor = closed.att .supervisor))

/-- The confirm input (R88, R89): going active starts the 1 ms of qualification; after it the level is ACTIVE, every open window is
satisfied, its summary is pending no more, and the run is 0 where a window was open; going inactive makes the level INACTIVE at
once and closes no window. A window that reaches its expiry closes as unconfirmed: it leaves the list, its summary is flagged, the
run gains one, and from 2 to 3 REJECT_FAULT is raised with the can's serial, a HALT reason (R89, R90). That the
oldest of several due windows closes first is the model's choice (log entry 9), and so is that an inactive edge taken as the 1 ms
ends keeps the level INACTIVE (log entry 26). The end of a reject pulse turns the output off
(R87). -/
def Obligations.ConfirmInputAndWindows : Prop :=
  (∀ s : State, s.resetHeld = false →
     (s.pins.confirm = false → exec .confirmInputActive s = .next { s with
       pins := { s.pins with confirm := true }, gate := { s.gate with qualify := some s.now } }) ∧
     (∀ since, s.pins.confirm = true → s.gate.qualify = some since → since + 20000 ≤ s.now →
       ∃ t, exec .confirmQualified s = .next t ∧ t = { s with gate := t.gate, canList := t.canList } ∧
         t.gate.confirmLevel = true ∧ t.gate.windows = [] ∧ t.gate.drive = s.gate.drive ∧
         (s.gate.windows ≠ [] → t.gate.unconfirmed = 0) ∧
         (s.gate.windows = [] → t.gate.unconfirmed = s.gate.unconfirmed ∧ t.canList = s.canList) ∧
         t.canList.ring = s.canList.ring.map (fun m =>
           if m.awaiting = true ∧ (∃ w ∈ s.gate.windows, w.serial = m.serial) then
             { m with awaiting := false, unconfirmed := false } else m)) ∧
     exec .confirmInputInactive s = .next { s with
       pins := { s.pins with confirm := false }, gate := { s.gate with confirmLevel := false, qualify := none } }) ∧
  (∀ s : State, s.resetHeld = false →
     (∀ ahead w rest, s.gate.windows = ahead ++ w :: rest → (∀ a ∈ ahead, s.now < a.expiry) → w.expiry ≤ s.now →
       ∃ t, exec .confirmWindowExpiry s = .next t ∧
         t.gate = { s.gate with windows := ahead ++ rest, unconfirmed := min 255 (s.gate.unconfirmed + 1) } ∧
         t.canList = { s.canList with ring := s.canList.ring.map (fun m =>
           if m.serial = w.serial ∧ m.awaiting = true then { m with awaiting := false, unconfirmed := true } else m) } ∧
         (s.gate.unconfirmed = 2 → t.pendingOnAll .rejectFault w.serial.toNat ∧ t.haltedBy s .rejectFault) ∧
         (s.gate.unconfirmed ≠ 2 → t.control = s.control ∧ t.attention = s.attention) ∧
         t.tracking = s.tracking ∧ t.dose = s.dose ∧ t.weigh = s.weigh) ∧
     (∀ e, s.gate.drive = some e → e ≤ s.now →
       exec .rejectPulseEnd s = .next { s with gate := { s.gate with drive := none } }))

/-- The can list (R94 to R96, R202). An append that takes the unread count to the level or above while the flag is armed raises
CAN_LIST_LEVEL on the quality link with the count as detail and disarms the flag; one that overwrites an unread summary does not. A
take returns unread summaries in ring order, none pending, at most n and at most what the answer holds, and marks them read; it
stops early only at a pending summary, at one that does not fit, or at the end. A level is installed, and CAN_LIST_LEVEL raised at
once where the unread count is at or above it. -/
def Obligations.CanListKeepsAndGives : Prop :=
  (∀ (m : CanSummary) (s : State), s.canList.unread ≤ s.canList.ring.length → s.canList.ring.length ≤ 256 →
     let n := min 256 (s.canList.unread + 1)
     (s.canList.unread < 256 → s.canList.armed = true → s.canList.level ≤ n →
       appendSummary m s = raiseOn .quality .canListLevel n
         { s with canList := { (s.canList.append m) with armed := false } }) ∧
     (s.canList.unread = 256 ∨ s.canList.armed = false ∨ n < s.canList.level →
       appendSummary m s = { s with canList := s.canList.append m }) ∧
     (s.canList.append m).unread = n ∧
     (s.canList.append m).ring = (s.canList.ring ++ [m]).drop (s.canList.ring.length + 1 - 256)) ∧
  ((∀ (n : Byte) (s : State), s.awaits ⟨.quality, Kind.canListTake.code, [n], none⟩ →
     (n.toNat < 1 ∨ 8 < n.toNat → exec (.canListTake .quality [n]) s = .next (answer .quality 0x17 (.refused .range) s)) ∧
     (1 ≤ n.toNat → n.toNat ≤ 8 → ∃ got later, s.canList.unreadSummaries = got ++ later ∧ got.length ≤ n.toNat ∧
       (∀ m ∈ got, m.awaiting = false) ∧ 3 + (got.flatMap summaryBytes).length ≤ 120 ∧
       (got.length < n.toNat → ∀ m more, later = m :: more →
         m.awaiting = true ∨ 120 < 3 + (got.flatMap summaryBytes).length + (summaryBytes m).length) ∧
       exec (.canListTake .quality [n]) s = .next (answer .quality 0x17
         (.ok (u8 got.length ++ u16 (s.canList.unread - got.length) ++ got.flatMap summaryBytes))
         { s with canList := { s.canList with
             unread := s.canList.unread - got.length
             armed := if s.canList.level ≤ s.canList.unread ∧ s.canList.unread - got.length < s.canList.level then true
               else s.canList.armed } }))) ∧
   (∀ (b1 b0 : Byte) (s : State), s.awaits ⟨.quality, Kind.listLevelSet.code, [b1, b0], none⟩ →
     let level := b1.toNat * 256 + b0.toNat
     (level < 1 ∨ 256 < level →
       exec (.listLevelSet .quality [b1, b0]) s = .next (answer .quality 0x18 (.refused .range) s)) ∧
     (1 ≤ level → level ≤ 256 → level ≤ s.canList.unread →
       exec (.listLevelSet .quality [b1, b0]) s = .next (answer .quality 0x18 (.ok [b1, b0])
         (raiseOn .quality .canListLevel s.canList.unread
           { s with canList := { s.canList with level := level, armed := false } }))) ∧
     (1 ≤ level → level ≤ 256 → s.canList.unread < level →
       exec (.listLevelSet .quality [b1, b0]) s = .next (answer .quality 0x18 (.ok [b1, b0])
         { s with canList := { s.canList with level := level, armed := true } }))))

/-! ## Doses and valves (chapters 5 and 6) -/

/-- The trim of an accumulator is its quotient by 2^shift rounded half up, and lies within the trim limit where the accumulator lies
within A_lim (R99). The dose served (R101) is 0 for a BLOCKED or UNUSED valve; else nominal dose, base offset, line offset and trim
summed exactly and clamped into dose min … dose max, so that a valve in service is never served less than dose min; the sum itself
lies within −20,476 … 86,012. -/
def Obligations.DoseServed : Prop :=
  (∀ (a : Int) (k : Nat),
     (2 * trimOf a k - 1) * 2 ^ k ≤ 2 * a ∧ 2 * a < (2 * trimOf a k + 1) * 2 ^ k ∧
     (∀ m : Nat, -((m : Int) * 2 ^ k) ≤ a → a ≤ (m : Int) * 2 ^ k → -(m : Int) ≤ trimOf a k ∧ trimOf a k ≤ m)) ∧
  ([6400, 128, -128, -384, -385].map (fun a => trimOf a 8) = [25, 1, 0, -1, -2]) ∧
  (∀ (r : Recipe) (e : Valve) (s : State), s.recipe = some r → r.doseMin ≤ r.doseMax →
     (e.state = .unused → s.doseOf e = 0) ∧ (∀ h, e.state = .blocked h → s.doseOf e = 0) ∧
     (e.state ≠ .unused → (∀ h, e.state ≠ .blocked h) →
       (s.doseOf e : Int) = max (r.doseMin : Int) (min r.doseMax
         (r.nominalDose + e.baseOffset + s.dose.lineOffset + trimOf e.accumulator r.shift)) ∧
       r.doseMin ≤ s.doseOf e ∧ s.doseOf e ≤ r.doseMax ∧ (1 ≤ r.doseMin → s.doseOf e ≠ 0) ∧
       (1 ≤ r.nominalDose → r.nominalDose ≤ 65535 → e.baseOffset.natAbs ≤ 8191 → s.dose.lineOffset.natAbs ≤ 8191 →
         (trimOf e.accumulator r.shift).natAbs ≤ 4095 →
         -20476 ≤ r.nominalDose + e.baseOffset + s.dose.lineOffset + trimOf e.accumulator r.shift ∧
         r.nominalDose + e.baseOffset + s.dose.lineOffset + trimOf e.accumulator r.shift ≤ 86012)))

/-- DOSE QUERY and BASE SET (R102, R103, R104, R119): STATE in CONFIG, RANGE outside the valves in use; else the doses and states of
the range, recorded as served for the filler alone; or the base offset, clamped into ±8,191, with the dose it gives, which is not
recorded as served. -/
def Obligations.DoseQueryAndBaseSet : Prop :=
  (∀ (l : Link) (v n : Byte) (s : State), s.awaits ⟨l, Kind.doseQuery.code, [v, n], none⟩ →
    (s.control.state = .config → exec (.doseQuery l [v, n]) s = .next (answer l 0x02 (.refused .state) s)) ∧
    (s.control.state ≠ .config →
      n.toNat < 1 ∨ 16 < n.toNat ∨ v.toNat < 1 ∨ s.valveCount < v.toNat + n.toNat - 1 →
      exec (.doseQuery l [v, n]) s = .next (answer l 0x02 (.refused .range) s)) ∧
    (s.control.state ≠ .config → 1 ≤ n.toNat → n.toNat ≤ 16 → 1 ≤ v.toNat → v.toNat + n.toNat - 1 ≤ s.valveCount →
      ∃ t, exec (.doseQuery l [v, n]) s = .next (answer l 0x02 (.ok ([v, n] ++ (List.range n.toNat).flatMap (fun i =>
          u16 (s.doseOf (s.valve (v.toNat + i))) ++ u8 (s.valve (v.toNat + i)).state.code))) t) ∧
        t = { s with dose := t.dose } ∧ (l ≠ .filler → t = s) ∧ t.dose.lineOffset = s.dose.lineOffset ∧
        t.dose.freeze = s.dose.freeze ∧ t.dose.centering = s.dose.centering ∧
        (s.tableWhole → l = .filler → ∀ u, 1 ≤ u → u ≤ 64 → t.valve u =
          if v.toNat ≤ u ∧ u < v.toNat + n.toNat then { s.valve u with lastDose := s.doseOf (s.valve u) }
          else s.valve u))) ∧
  (∀ (v b1 b0 : Byte) (s : State), s.awaits ⟨.supervisor, Kind.baseSet.code, [v, b1, b0], none⟩ →
    (s.control.state = .config →
      exec (.baseSet .supervisor [v, b1, b0]) s = .next (answer .supervisor 0x06 (.refused .state) s)) ∧
    (s.control.state ≠ .config → v.toNat < 1 ∨ s.valveCount < v.toNat →
      exec (.baseSet .supervisor [v, b1, b0]) s = .next (answer .supervisor 0x06 (.refused .range) s)) ∧
    (s.control.state ≠ .config → s.tableWhole → 1 ≤ v.toNat → v.toNat ≤ s.valveCount →
      let value : Int := (b1.toNat * 256 + b0.toNat : Nat) - (if 128 ≤ b1.toNat then 65536 else 0)
      let e : Valve := { s.valve v.toNat with baseOffset := max (-8191) (min 8191 value) }
      exec (.baseSet .supervisor [v, b1, b0]) s = .next (answer .supervisor 0x06
        (.ok ([v] ++ s16 e.baseOffset ++ u16 (s.doseOf e) ++ u8 e.state.code))
        { s with dose := { s.dose with valves := s.dose.valves.set (v.toNat - 1) e } })))

/-- A control update of valve v changes, up to its eighth step, the entry of that valve alone (R107 to R113): the error, limited to
±32,767, beyond the dead band moves the accumulator within ±A_lim, and a clamp adds to the limit run; the net moves the
out-of-tolerance run, the state, the window of 8 and the alert flag; VALVE_SUSPECT and ALERT are raised where an alarm is reached or
the mean falls below the alert, and nothing else is. The eighth step (R114) adds one to the centering counter; where that comes to
center every, the counter becomes 0 and the centering step of CenteringKeepsEveryDose is taken. -/
def Obligations.ControlUpdateEntry : Prop :=
  ∀ (r : Recipe) (v : Nat) (net : Int) (s : State), s.tableWhole → 1 ≤ v → v ≤ 64 → (s.valve v).netWindow.length ≤ 8 →
    let e := s.valve v
    let err : Int := max (-32767) (min 32767 (r.targetNet - net))
    let lim : Int := (r.trimLimit : Int) * 2 ^ r.shift
    let candidate := e.accumulator + err * r.gain
    let inside := (r.targetNet : Int) - r.tolUnder ≤ net ∧ net ≤ (r.targetNet : Int) + r.tolOver
    ∃ t : State,
    (s.dose.centering + 1 < r.centerEvery →
      controlUpdate r v net s = { t with dose := { t.dose with centering := s.dose.centering + 1 } }) ∧
    (r.centerEvery ≤ s.dose.centering + 1 →
      controlUpdate r v net s = centeringStep r { t with dose := { t.dose with centering := 0 } }) ∧
    t = { s with dose := t.dose, attention := t.attention } ∧
    let u := t.valve v
    let alarm := e.state = .active ∧ (r.limitAlarm ≤ u.limitRun ∨ r.ootAlarm ≤ u.ootRun)
    let below := r.alertBand ≠ 0 ∧ roundAway u.netWindow.sum u.netWindow.length < (r.targetNet : Int) - r.alertBand
    let suspected := if alarm then raiseAll .valveSuspect v s else s
    t.attention = (if below ∧ e.alertArmed = true then raiseAll .alert v suspected else suspected).attention ∧
    (err.natAbs ≤ r.deadBand → u.accumulator = e.accumulator ∧ u.limitRun = 0) ∧
    (r.deadBand < err.natAbs → u.accumulator = max (-lim) (min lim candidate) ∧
      (-lim ≤ candidate ∧ candidate ≤ lim → u.limitRun = 0) ∧
      (candidate < -lim ∨ lim < candidate → u.limitRun = min 255 (e.limitRun + 1))) ∧
    (inside → u.ootRun = 0) ∧ (¬inside → u.ootRun = min 255 (e.ootRun + 1)) ∧
    (e.state = .active → r.limitAlarm ≤ u.limitRun ∨ r.ootAlarm ≤ u.ootRun →
      u.state = .suspect ∧ t.pendingOnAll .valveSuspect v) ∧
    (e.state = .active → u.limitRun < r.limitAlarm → u.ootRun < r.ootAlarm → u.state = .active) ∧
    (∀ left, e.state = .probation left → inside →
      u.state = if left - 1 = 0 then .active else .probation (left - 1)) ∧
    (∀ left, e.state = .probation left → ¬inside →
      u.state = if r.probationCount = 0 then .active else .probation r.probationCount) ∧
    ((∀ left, e.state ≠ .probation left) → e.state ≠ .active → u.state = e.state) ∧
    u.netWindow = (e.netWindow ++ [net]).drop (e.netWindow.length + 1 - 8) ∧
    (r.alertBand = 0 → u.alertArmed = e.alertArmed) ∧
    (r.alertBand ≠ 0 → (u.alertArmed = true ↔ ¬below) ∧ (below → e.alertArmed = true → t.pendingOnAll .alert v)) ∧
    u.baseOffset = e.baseOffset ∧ u.weighed = e.weighed ∧ u.rejected = e.rejected ∧ u.lastDose = e.lastDose ∧
    (∀ w, 1 ≤ w → w ≤ 64 → w ≠ v → t.valve w = s.valve w) ∧ t.dose.lineOffset = s.dose.lineOffset ∧
    t.dose.freeze = s.dose.freeze ∧ t.dose.valves.length = 64

/-- A centering step moves the mean trim of the ACTIVE valves, limited by every valve in use and by the line limit, into the line
offset, and takes it out of every accumulator in use: every trim falls by the move, no dose changes, no accumulator leaves A_lim and
the line offset does not leave its limit (R115 to R118). Of the moves that keep both, it is the one nearest to the mean, so that a
mean beyond an interval of R116 or R117 becomes the nearer end. ControlUpdateEntry says when an update takes the step. -/
def Obligations.CenteringKeepsEveryDose : Prop :=
  ∀ (r : Recipe) (s : State), s.recipe = some r → s.doseBounded →
    let t := centeringStep r s
    let trims := (s.inUse.filter (fun e => e.state == .active)).map (fun e => trimOf e.accumulator r.shift)
    let mean := roundAway trims.sum trims.length
    let lim : Int := (r.trimLimit : Int) * 2 ^ r.shift
    let allowed := fun d : Int =>
      (∀ e ∈ s.inUse, -lim ≤ e.accumulator - d * 2 ^ r.shift ∧ e.accumulator - d * 2 ^ r.shift ≤ lim) ∧
      -(r.lineLimit : Int) ≤ s.dose.lineOffset + d ∧ s.dose.lineOffset + d ≤ r.lineLimit
    ∃ c : Int, t.dose.lineOffset = s.dose.lineOffset + c ∧
      (trims = [] ∨ mean.natAbs < r.centerThreshold → c = 0) ∧ allowed c ∧
      (trims ≠ [] → r.centerThreshold ≤ mean.natAbs → ∀ d, allowed d → (mean - c).natAbs ≤ (mean - d).natAbs) ∧
      (trims ≠ [] → r.centerThreshold ≤ mean.natAbs →
        (∀ e ∈ s.inUse, -lim ≤ e.accumulator - mean * 2 ^ r.shift ∧ e.accumulator - mean * 2 ^ r.shift ≤ lim) →
        -(r.lineLimit : Int) ≤ s.dose.lineOffset + mean → s.dose.lineOffset + mean ≤ r.lineLimit → c = mean) ∧
      (0 ≤ mean → 0 ≤ c ∧ c ≤ mean) ∧ (mean ≤ 0 → mean ≤ c ∧ c ≤ 0) ∧
      (∀ v, 1 ≤ v → v ≤ s.valveCount →
        t.valve v = { s.valve v with accumulator := (s.valve v).accumulator - c * 2 ^ r.shift } ∧
        trimOf (t.valve v).accumulator r.shift = trimOf (s.valve v).accumulator r.shift - c ∧
        t.doseOf (t.valve v) = s.doseOf (s.valve v) ∧
        -lim ≤ (t.valve v).accumulator ∧ (t.valve v).accumulator ≤ lim) ∧
      (∀ v, s.valveCount < v → t.valve v = s.valve v) ∧
      -(r.lineLimit : Int) ≤ t.dose.lineOffset ∧ t.dose.lineOffset ≤ r.lineLimit ∧
      t.dose.freeze = s.dose.freeze ∧ t.attention = s.attention ∧ t.store = s.store

/-- FREEZE, THAW and THAW ALL change the member SUPERVISOR, or empty the set, and answer the set and the line offset in every
operating state, and are refused with LINK on the other links; line commands 2 and 3 change the member LINE and are TAKEN in every
state (R121, R122, R179). Nothing else of the dose unit changes. -/
def Obligations.FreezeSources : Prop :=
  ∀ s : State,
    let set := fun f : FreezeSet => { s with dose := { s.dose with freeze := f } }
    let reply := fun f : FreezeSet => Reply.ok (u8 f.mask ++ s16 s.dose.lineOffset)
    let f := s.dose.freeze
    (s.awaits ⟨.supervisor, Kind.freeze.code, [], none⟩ → exec (.freeze .supervisor []) s =
      .next (answer .supervisor 0x11 (reply { f with supervisor := true }) (set { f with supervisor := true }))) ∧
    (s.awaits ⟨.supervisor, Kind.thaw.code, [], none⟩ → exec (.thaw .supervisor []) s =
      .next (answer .supervisor 0x12 (reply { f with supervisor := false }) (set { f with supervisor := false }))) ∧
    (s.awaits ⟨.supervisor, Kind.thawAll.code, [], none⟩ → exec (.thawAll .supervisor []) s =
      .next (answer .supervisor 0x13 (reply { line := false, supervisor := false })
        (set { line := false, supervisor := false }))) ∧
    (∀ l, l ≠ .supervisor →
      (s.awaits ⟨l, Kind.freeze.code, [], none⟩ → exec (.freeze l []) s = .next (answer l 0x11 (.refused .link) s)) ∧
      (s.awaits ⟨l, Kind.thaw.code, [], none⟩ → exec (.thaw l []) s = .next (answer l 0x12 (.refused .link) s)) ∧
      (s.awaits ⟨l, Kind.thawAll.code, [], none⟩ → exec (.thawAll l []) s = .next (answer l 0x13 (.refused .link) s))) ∧
    (s.resetHeld = false → s.control.decoder = .space 2 → ms 40 ≤ s.spell → exec .lineFreeze s =
      .next ((set { f with line := true }).setControl
        { s.control with decoder := .idle, lastCommand := some { number := 2, taken := true } })) ∧
    (s.resetHeld = false → s.control.decoder = .space 3 → ms 40 ≤ s.spell → exec .lineThaw s =
      .next ((set { f with line := false }).setControl
        { s.control with decoder := .idle, lastCommand := some { number := 3, taken := true } }))

/-- VALVE HOLD (R133, R134): STATE in CONFIG, RANGE outside the valves in use; a valve that is not BLOCKED becomes BLOCKED with the
sender as holder; the holder's own hold changes nothing; the supervisor takes over another link's hold, and the filler and the
quality station are answered HELD. VALVE FREE and VALVE ACCEPT, refused with STATE and RANGE in the same way (R136, R138): the holder or the
supervisor releases a BLOCKED valve, and the supervisor a SUSPECT one, into PROBATION or, where the probation count is 0, ACTIVE,
with both runs 0; another link is answered HELD; ACCEPT takes SUSPECT to ACTIVE with both runs 0 and is answered HELD on a BLOCKED
valve; elsewhere nothing changes. -/
def Obligations.ValveHoldsAndReleases : Prop :=
  (∀ (l : Link) (v : Byte) (s : State), s.awaits ⟨l, Kind.valveHold.code, [v], none⟩ → s.tableWhole →
     let e := s.valve v.toNat
     let put := fun st : ValveState => { s with dose := { s.dose with
       valves := s.dose.valves.set (v.toNat - 1) { e with state := st } } }
     (s.control.state = .config → exec (.valveHold l [v]) s = .next (answer l 0x03 (.refused .state) s)) ∧
     (s.control.state ≠ .config → v.toNat < 1 ∨ s.valveCount < v.toNat →
       exec (.valveHold l [v]) s = .next (answer l 0x03 (.refused .range) s)) ∧
     (s.control.state ≠ .config → 1 ≤ v.toNat → v.toNat ≤ s.valveCount →
       ((∀ h, e.state ≠ .blocked h) →
         exec (.valveHold l [v]) s = .next (answer l 0x03 (.ok [v, 4, BitVec.ofNat 8 (holderCode l)]) (put (.blocked l)))) ∧
       (e.state = .blocked l →
         exec (.valveHold l [v]) s = .next (answer l 0x03 (.ok [v, 4, BitVec.ofNat 8 (holderCode l)]) s)) ∧
       (∀ h, e.state = .blocked h → h ≠ l → l = .supervisor →
         exec (.valveHold l [v]) s = .next (answer l 0x03 (.ok [v, 4, 2]) (put (.blocked .supervisor)))) ∧
       (∀ h, e.state = .blocked h → h ≠ l → l ≠ .supervisor →
         exec (.valveHold l [v]) s = .next (answer l 0x03
           { status := .held, payload := [v, 4, BitVec.ofNat 8 (holderCode h)] } s)))) ∧
  (∀ (l : Link) (v : Byte) (s : State), s.tableWhole → s.control.state ≠ .config → 1 ≤ v.toNat → v.toNat ≤ s.valveCount →
     let e := s.valve v.toNat
     let put := fun st : ValveState => { s with dose := { s.dose with
       valves := s.dose.valves.set (v.toNat - 1) { e with state := st, limitRun := 0, ootRun := 0 } } }
     let count := (s.recipe.map Recipe.probationCount).getD 0
     let freed : ValveState := if count = 0 then .active else .probation count
     let held := fun h : Byte => ({ status := .held, payload := [v, BitVec.ofNat 8 e.state.code, h] } : Reply)
     (s.awaits ⟨l, Kind.valveFree.code, [v], none⟩ →
       let release := exec (.valveFree l [v]) s =
         .next (answer l 0x04 (.ok [v, BitVec.ofNat 8 freed.code, 0]) (put freed))
       (∀ h, e.state = .blocked h → h = l ∨ l = .supervisor → release) ∧
       (∀ h, e.state = .blocked h → h ≠ l → l ≠ .supervisor →
         exec (.valveFree l [v]) s = .next (answer l 0x04 (held (BitVec.ofNat 8 (holderCode h))) s)) ∧
       (e.state = .suspect → l = .supervisor → release) ∧
       (e.state = .suspect → l ≠ .supervisor → exec (.valveFree l [v]) s = .next (answer l 0x04 (held 0) s)) ∧
       ((∀ h, e.state ≠ .blocked h) → e.state ≠ .suspect →
         exec (.valveFree l [v]) s = .next (answer l 0x04 (.ok [v, BitVec.ofNat 8 e.state.code, 0]) s))) ∧
     (s.awaits ⟨.supervisor, Kind.valveAccept.code, [v], none⟩ →
       (e.state = .suspect → exec (.valveAccept .supervisor [v]) s =
         .next (answer .supervisor 0x05 (.ok [v, 1, 0]) (put .active))) ∧
       (∀ h, e.state = .blocked h → exec (.valveAccept .supervisor [v]) s =
         .next (answer .supervisor 0x05 (held (BitVec.ofNat 8 (holderCode h))) s)) ∧
       ((∀ h, e.state ≠ .blocked h) → e.state ≠ .suspect → exec (.valveAccept .supervisor [v]) s =
         .next (answer .supervisor 0x05 (.ok [v, BitVec.ofNat 8 e.state.code, 0]) s)))) ∧
  (∀ (l : Link) (v : Byte) (s : State),
     (s.awaits ⟨l, Kind.valveFree.code, [v], none⟩ →
       (s.control.state = .config → exec (.valveFree l [v]) s = .next (answer l 0x04 (.refused .state) s)) ∧
       (s.control.state ≠ .config → v.toNat < 1 ∨ s.valveCount < v.toNat →
         exec (.valveFree l [v]) s = .next (answer l 0x04 (.refused .range) s))) ∧
     (s.awaits ⟨.supervisor, Kind.valveAccept.code, [v], none⟩ →
       (s.control.state = .config →
         exec (.valveAccept .supervisor [v]) s = .next (answer .supervisor 0x05 (.refused .state) s)) ∧
       (s.control.state ≠ .config → v.toNat < 1 ∨ s.valveCount < v.toNat →
         exec (.valveAccept .supervisor [v]) s = .next (answer .supervisor 0x05 (.refused .range) s))))

/-! ## The settings store (chapter 7) -/

/-- The bytes of a settings record as RECORD READ gives them are the bytes that the load brought, with the keep-trims flag of a
recipe clear (R148, R156, section 12.3). -/
def Obligations.RecordsReadBackAsLoaded : Prop :=
  (∀ p : List Byte, p.length = 17 → layoutBytes (layoutOf p) = p) ∧
  (∀ p : List Byte, p.length = 14 → calibrationBytes (calibrationOf p) = p) ∧
  (∀ p : List Byte, lengthOk .recipeLoad p = true → recipeFlagsValid p = true →
    recipeBytes (recipeOfPayload p) (keepTrimsOf p) = p ∧ recipeBytes (recipeOfPayload p) false = p.set 31 0)

/-- LAYOUT LOAD (R147, R149, R150): STATE in RUN and HALT; RANGE where a field or a cross-check fails; STATE for another valve count
while the part is frozen; else the record is installed, the divider residue is 0, entries come into use ACTIVE or leave it at the
reset values, and CONFIG becomes READY where the other two records are present. -/
def Obligations.LayoutLoadInstalls : Prop :=
  ∀ (p : List Byte) (s : State), p.length = 17 → s.awaits ⟨.supervisor, Kind.layoutLoad.code, p, none⟩ →
    let r := layoutOf p
    let replies := fun (x : Reply) (t : State) => exec (.layoutLoad .supervisor p) s = .next (answer .supervisor 0x08 x t)
    let valid := 1 ≤ r.valveCount ∧ r.valveCount ≤ 64 ∧
      (r.divider = 1 ∨ r.divider = 2 ∨ r.divider = 4 ∨ r.divider = 8) ∧ 1 ≤ r.platformDistance ∧ 1 ≤ r.platformWindow ∧
      r.platformWindow ≤ 4095 ∧ 1 ≤ r.readerDistance ∧ 1 ≤ r.readerWindow ∧ r.readerWindow ≤ 4095 ∧
      1 ≤ r.rejectDistance ∧ 1 ≤ r.maxDwell ∧ 1 ≤ r.slipAlarm ∧ r.slipAlarm ≤ 16 ∧ 5 ≤ r.gatePulse ∧ r.gatePulse ≤ 200 ∧
      1 ≤ r.confirmTime ∧ r.confirmTime ≤ 100 ∧
      (r.platformDistance : Int) + r.platformWindow ≤ (r.readerDistance : Int) - r.readerWindow ∧
      r.readerDistance + r.readerWindow < r.rejectDistance
    let loads := s.control.state = .config ∨ s.control.state = .ready
    (¬loads → replies (.refused .state) s) ∧ (loads → ¬valid → replies (.refused .range) s) ∧
    (loads → valid → r.valveCount ≠ s.valveCount → s.frozen = true → replies (.refused .state) s) ∧
    (loads → valid → s.tableWhole → r.valveCount = s.valveCount ∨ s.frozen = false →
      ∃ vs, replies (.ok [p.getD 0 0]) { s with
          tracking := { s.tracking with residue := 0 }
          dose := { s.dose with valves := vs }
          store := { s.store with layout := some r }
          control := { s.control with state :=
            if s.store.calibration ≠ none ∧ s.store.current ≠ none then .ready else s.control.state } } ∧
        vs.length = 64 ∧
        ∀ v, 1 ≤ v → v ≤ 64 → vs.getD (v - 1) Valve.reset =
          if s.valveCount < v ∧ v ≤ r.valveCount then { Valve.reset with state := .active }
          else if r.valveCount < v ∧ v ≤ s.valveCount then Valve.reset else s.valve v)

/-- CAL LOAD (R36, R60, R151, R152): STATE in RUN and HALT; RANGE where a field fails; else the record is installed with its zero
figure and span as the working ones, the zero state NORMAL, the conversions restarted, a unit in IDLE put to WAIT_CLEAR or EMPTY by
the eye, a capture in progress aborted with cause CAL_LOAD, and CONFIG becomes READY where the other two records are present. -/
def Obligations.CalLoadInstalls : Prop :=
  ∀ (p : List Byte) (s : State), p.length = 14 → s.awaits ⟨.supervisor, Kind.calLoad.code, p, none⟩ →
    let r := calibrationOf p
    let replies := fun (x : Reply) (t : State) => exec (.calLoad .supervisor p) s = .next (answer .supervisor 0x09 x t)
    let valid := (r.periodSetting = 16 ∨ r.periodSetting = 32 ∨ r.periodSetting = 64) ∧ 1 ≤ r.span ∧
      200000 ≤ r.zeroFigure ∧ r.zeroFigure ≤ 600000 ∧ 2 ≤ r.zeroRate ∧ r.zeroRate ≤ 8 ∧ 1 ≤ r.zeroBand ∧
      r.zeroBand ≤ 20000 ∧ r.settleSkip ≤ 15 ∧ r.tailDrop ≤ 3 ∧ 1 ≤ r.minCount ∧ r.minCount ≤ 8 ∧ r.zeroSettle ≤ 15
    let loads := s.control.state = .config ∨ s.control.state = .ready
    let put : State := { s with
      weigh := { s.weigh with
        fz := some r.zeroFigure, span := some r.span, zeroState := .normal, zeroRun := 0, settleCount := 0,
        conversion := .waiting, period := 0,
        platform := if s.weigh.platform = .idle then (if s.pins.eye = true then .waitClear else .empty)
          else s.weigh.platform }
      store := { s.store with calibration := some r }
      control := { s.control with state :=
        if s.store.layout ≠ none ∧ s.store.current ≠ none then .ready else s.control.state } }
    (¬loads → replies (.refused .state) s) ∧ (loads → ¬valid → replies (.refused .range) s) ∧
    (loads → valid → s.weigh.capture.outcome ≠ .inProgress → replies (.ok []) put) ∧
    (loads → valid → s.weigh.capture.outcome = .inProgress → replies (.ok []) (raiseOn .supervisor .calDone 4 { put with
      weigh := { put.weigh with
        capture := { s.weigh.capture with outcome := .calAborted, abortCause := some .calLoad } } }))

/-- RECIPE LOAD (R147, R154, R155, R157, R159 to R165): STATE in CONFIG without a layout record; RANGE where a field, a flag or the
cross-check fails; RECIPE_BUSY in RUN and HALT while a previous recipe is held; else the outgoing recipe becomes the previous one,
or is retired at once where no record carries it, the loaded one takes the next generation, and the accumulators and the line
offset are carried over where keep trims is set and 0 where it is clear. In READY with a previous recipe held the queue is flushed
first, which retires that recipe; the outgoing one is then retired too (R161, R162). -/
def Obligations.RecipeLoadInstalls : Prop :=
  ∀ (p : List Byte) (s : State), lengthOk .recipeLoad p = true → s.awaits ⟨.supervisor, Kind.recipeLoad.code, p, none⟩ →
    let r := recipeOfPayload p
    let replies := fun (x : Reply) (t : State) => exec (.recipeLoad .supervisor p) s = .next (answer .supervisor 0x0A x t)
    let valid := (p.getD 30 0 = 0 ∨ p.getD 30 0 = 1) ∧ (p.getD 31 0 = 0 ∨ p.getD 31 0 = 1) ∧
      100 ≤ r.targetNet ∧ r.targetNet ≤ 200000 ∧ r.tolUnder ≤ 20000 ∧ r.tolOver ≤ 20000 ∧ r.tareNominal ≤ 50000 ∧
      1 ≤ r.nominalDose ∧ r.nominalDose ≤ 65535 ∧ 1 ≤ r.doseMin ∧ r.doseMin ≤ 65535 ∧ 1 ≤ r.doseMax ∧ r.doseMax ≤ 65535 ∧
      r.gain ≤ 255 ∧ r.shift ≤ 15 ∧ r.trimLimit ≤ 4095 ∧ r.deadBand ≤ 2000 ∧ 1 ≤ r.limitAlarm ∧ r.limitAlarm ≤ 64 ∧
      1 ≤ r.ootAlarm ∧ r.ootAlarm ≤ 32 ∧ r.lineLimit ≤ 8191 ∧ 1 ≤ r.centerThreshold ∧ r.centerThreshold ≤ 255 ∧
      8 ≤ r.centerEvery ∧ r.centerEvery ≤ 255 ∧ r.probationCount ≤ 16 ∧ r.alertBand ≤ 20000 ∧ r.doseMin ≤ r.doseMax ∧
      (∀ q, r.codePattern = some q → 1 ≤ q.length ∧ q.length ≤ 24 ∧ ∀ x ∈ q, 0x20 ≤ x.toNat ∧ x.toNat ≤ 0x7E)
    let keep := p.getD 31 0 = 1
    let loads := s.control.state ≠ .config ∨ s.store.layout ≠ none
    let gen := s.store.nextGeneration
    let lim : Int := (r.trimLimit : Int) * 2 ^ r.shift
    let installed := fun t : State =>
      t.store.layout = s.store.layout ∧ t.store.calibration = s.store.calibration ∧ t.store.nextGeneration = gen + 1 ∧
      (∃ h, t.store.current = some h ∧ h.recipe = r ∧ h.generation = gen ∧ h.count = 0) ∧
      t.dose.centering = 0 ∧ t.dose.freeze = s.dose.freeze ∧
      t.dose.lineOffset =
        (if keep then max (-(r.lineLimit : Int)) (min r.lineLimit s.dose.lineOffset) else 0) ∧
      (∀ v, 1 ≤ v → v ≤ s.valveCount → t.valve v = { s.valve v with
        accumulator := (if keep then max (-lim) (min lim
            ((s.recipe.map (fun o => trimOf (s.valve v).accumulator o.shift)).getD 0 * 2 ^ r.shift)) else 0)
        netWindow := [], alertArmed := true }) ∧
      t.control = { s.control with state :=
        if s.control.state = .config ∧ s.store.layout ≠ none ∧ s.store.calibration ≠ none then .ready
        else s.control.state } ∧
      t.gate = s.gate ∧ t.code = s.code ∧ t.links = s.links
    (¬loads → replies (.refused .state) s) ∧ (loads → ¬valid → replies (.refused .range) s) ∧
    (∀ h, loads → valid → s.store.previous = some h → s.control.state = .run ∨ s.control.state = .halt →
      replies { status := .recipeBusy, payload := [h.generation, BitVec.ofNat 8 h.count] } s) ∧
    (loads → valid → s.tableWhole → s.store.previous = none →
      (∀ h, s.store.current = some h → 0 < h.count → ∃ t, replies (.ok [gen, 1, h.generation]) t ∧ installed t ∧
        t.store.previous = some h ∧ t.tracking = s.tracking ∧ t.weigh = s.weigh ∧ t.canList = s.canList ∧
        t.attention = s.attention) ∧
      (∀ h, s.store.current = some h → h.count = 0 → ∃ t, replies (.ok [gen, 0, 0]) t ∧ installed t ∧
        t.store.previous = none ∧ t.tracking = s.tracking ∧ t.weigh = s.weigh ∧ t.canList = s.canList ∧
        t.attention = (raiseOn .supervisor .recipeRetired h.generation.toNat s).attention) ∧
      (s.store.current = none → ∃ t, replies (.ok [gen, 0, 0]) t ∧ installed t ∧ t.store.previous = none ∧
        t.tracking = s.tracking ∧ t.weigh = s.weigh ∧ t.canList = s.canList ∧ t.attention = s.attention)) ∧
    (∀ h, loads → valid → s.tableWhole → s.generationsAgree → s.store.previous = some h →
      s.control.state = .config ∨ s.control.state = .ready →
      ∃ t o, replies (.ok [gen, 0, 0]) t ∧ installed t ∧ t.store.previous = none ∧ s.store.current = some o ∧
        t.tracking = { s.tracking with queue := [] } ∧
        (s.canList.ring.length ≤ 256 → s.canList.unread ≤ s.canList.ring.length → t.flushedList s) ∧
        t.att .supervisor = ((s.att .supervisor).raised s.now .recipeRetired h.generation.toNat).raised s.now
          .recipeRetired o.generation.toNat ∧
        ((∃ w, s.weigh.platform = .dwell w) → t.weigh = { s.weigh with platform := .waitClear }) ∧
        ((∀ w, s.weigh.platform ≠ .dwell w) → t.weigh = s.weigh))

/-! ## Operating states and the line command input (chapter 8) -/

/-- START, STOP and CLEAR as requests, and CLEAR as line command 1 (R171, R174, R175, R179): refused with STATE, or ignored, outside
their states; else the operating state is entered with the line stop released, START and CLEAR set both runs to 0, START aborts a
capture in progress, and STOP ends a weighing in progress with FLUSHED_DURING_DWELL, its record's reasons as R82 gives them. -/
def Obligations.StartStopClear : Prop :=
  ∀ s : State,
    let enter := fun (op : OpState) (t : State) => { t with control := { s.control with state := op, lineStop := false } }
    let runsZero := fun t : State =>
      { t with tracking := { s.tracking with slip := 0 }, gate := { s.gate with unconfirmed := 0 } }
    (s.awaits ⟨.supervisor, Kind.start.code, [], none⟩ →
      let replies := fun (x : Reply) (t : State) => exec (.start .supervisor []) s = .next (answer .supervisor 0x0C x t)
      (s.control.state ≠ .ready ∨ s.weigh.cellFault = true → replies (.refused .state) s) ∧
      (s.control.state = .ready → s.weigh.cellFault = false → s.weigh.capture.outcome ≠ .inProgress →
        replies (.ok [2]) (enter .run (runsZero s))) ∧
      (s.control.state = .ready → s.weigh.cellFault = false → s.weigh.capture.outcome = .inProgress →
        replies (.ok [2]) (raiseOn .supervisor .calDone 4 { enter .run (runsZero s) with weigh := { s.weigh with
          capture := { s.weigh.capture with outcome := .calAborted, abortCause := some .start } } }))) ∧
    (s.awaits ⟨.supervisor, Kind.stop.code, [], none⟩ →
      let replies := fun (x : Reply) (t : State) => exec (.stop .supervisor []) s = .next (answer .supervisor 0x0D x t)
      let working := s.control.state = .run ∨ s.control.state = .halt
      (¬working → replies (.refused .state) s) ∧
      (working → (∀ w, s.weigh.platform ≠ .dwell w) → replies (.ok [1]) (enter .ready s)) ∧
      (∀ w, working → s.weigh.platform = .dwell w → w.binding = none ∨ (∃ n, w.binding = some n ∧
          ∀ c ∈ s.tracking.queue, ¬(c.serial = n ∧ c.stage = .onPlatform)) →
        replies (.ok [1]) { enter .ready s with weigh := { s.weigh with platform := .waitClear } }) ∧
      (∀ w n ahead c rest, working → s.weigh.platform = .dwell w → w.binding = some n →
        s.tracking.queue = ahead ++ c :: rest → (∀ a ∈ ahead, ¬(a.serial = n ∧ a.stage = .onPlatform)) →
        c.serial = n → c.stage = .onPlatform → ∃ rs,
          (∀ r, r ∈ rs ↔ r ∈ c.reasons ∨ r = .noReading ∨ (r = .probation ∧ c.origin = .filled ∧
            ∃ v left, c.valve = some v ∧ (s.valve v).state = .probation left)) ∧
          replies (.ok [1]) { enter .ready s with
            weigh := { s.weigh with platform := .waitClear }
            tracking := { s.tracking with queue := ahead ++
              { c with reading := some (.noReading .flushedDuringDwell), stage := .weighed, reasons := rs } :: rest } })) ∧
    (s.awaits ⟨.supervisor, Kind.clear.code, [], none⟩ →
      let replies := fun (x : Reply) (t : State) => exec (.clear .supervisor []) s = .next (answer .supervisor 0x0E x t)
      (s.control.state ≠ .halt ∨ s.weigh.cellFault = true → replies (.refused .state) s) ∧
      (s.control.state = .halt → s.weigh.cellFault = false → replies (.ok [2]) (enter .run (runsZero s)))) ∧
    (s.resetHeld = false → s.control.decoder = .space 1 → ms 40 ≤ s.spell →
      (s.control.state ≠ .halt ∨ s.weigh.cellFault = true → exec .lineClear s = .next { s with
        control := { s.control with decoder := .idle, lastCommand := some { number := 1, taken := false } } }) ∧
      (s.control.state = .halt → s.weigh.cellFault = false → exec .lineClear s = .next { runsZero s with
        control := { s.control with state := .run, lineStop := false, decoder := .idle,
                                    lastCommand := some { number := 1, taken := true } } }))

/-- RESTART (R32, R53, R90, R93, R94, R97, R125, R167, R176), in every operating state: the queue is flushed, every record passing to
the can list in queue order with the verdict FLUSHED, none of them pending, CAN_LIST_LEVEL raised where the count comes to its level,
and a previous recipe is retired with RECIPE_RETIRED (R96, R162); both runs are 0, the dose unit starts afresh with its base offsets, counts and BLOCKED valves kept, a capture in progress is aborted, and the part enters READY, or
stays in CONFIG, with the line stop released; the settings, the decoder, the line command record, the drive, the windows and the
links stay. -/
def Obligations.RestartKeepsSettings : Prop :=
  ∀ s : State, s.awaits ⟨.supervisor, Kind.restart.code, [], none⟩ →
    let op : OpState := if s.control.state = .config then .config else .ready
    ∃ t, exec (.restart .supervisor []) s = .next (answer .supervisor 0x10 (.ok (u8 op.code)) t) ∧
      t.control = { s.control with state := op, lineStop := false } ∧
      t.tracking = { s.tracking with queue := [], slip := 0 } ∧ t.gate = { s.gate with unconfirmed := 0 } ∧
      (s.canList.ring.length ≤ 256 → s.canList.unread ≤ s.canList.ring.length → t.flushedList s) ∧
      t.dose.lineOffset = 0 ∧ t.dose.centering = 0 ∧ t.dose.freeze = { line := false, supervisor := false } ∧
      t.dose.valves = s.dose.valves.map (fun e => { e with
        state := (match e.state with
          | .unused => .unused
          | .blocked h => .blocked h
          | _ => .active)
        accumulator := 0, limitRun := 0, ootRun := 0, netWindow := [], alertArmed := true }) ∧
      t.store.layout = s.store.layout ∧ t.store.calibration = s.store.calibration ∧ t.recipe = s.recipe ∧
      t.store.nextGeneration = s.store.nextGeneration ∧ (s.generationsAgree → t.store.previous = none ∧
        t.store.current = s.store.current.map (fun h => { h with count := 0 }) ∧
        t.att .supervisor = if s.weigh.capture.outcome = .inProgress then s.attRetired.raised s.now .calDone 4
          else s.attRetired) ∧
      ((∃ w, s.weigh.platform = .dwell w) → t.weigh.platform = .waitClear) ∧
      ((∀ w, s.weigh.platform ≠ .dwell w) → t.weigh.platform = s.weigh.platform) ∧
      t.weigh.fz = s.weigh.fz ∧ t.weigh.span = s.weigh.span ∧ t.weigh.zeroState = s.weigh.zeroState ∧
      (s.weigh.capture.outcome = .inProgress → t.weigh.capture =
          { s.weigh.capture with outcome := .calAborted, abortCause := some .restart } ∧
        { cause := .calDone, detail := 4 } ∈ (t.att .supervisor).pending) ∧
      (s.weigh.capture.outcome ≠ .inProgress → t.weigh.capture = s.weigh.capture) ∧
      t.code = s.code ∧ t.links = s.links ∧ t.reader = s.reader ∧ t.pins = s.pins

/-- The line command decoder (R178): the edges of the input and its spell timer, where the timer has reached no bound before the
edge, do what the table of the rule says, state by state; and a command that ends with a count of 0, or with 6 or more, adds one to
the line command error count and is handed to no block (R179). -/
def Obligations.LineDecoderActs : Prop :=
  (∀ s : State, s.resetHeld = false →
     let w := s.spell
     let moves := fun (i : Instr) (high : Bool) (d : LineDecoder) => exec i s = .next { s with
       pins := { s.pins with lcmdHigh := high }, control := { s.control with decoder := d, spellStart := s.now } }
     let abandons := fun (i : Instr) (high : Bool) => exec i s = .next { s with
       pins := { s.pins with lcmdHigh := high }
       control := { s.control with decoder := .recover, spellStart := s.now, errors := min 65535 (s.control.errors + 1) } }
     (s.pins.lcmdHigh = true →
       (s.control.decoder = .idle → moves .lcmdFallingEdge false .lead) ∧
       (s.control.decoder = .gap → w < ms 40 →
         (ms 10 ≤ w → moves .lcmdFallingEdge false (.pulse 0)) ∧ (w < ms 10 → abandons .lcmdFallingEdge false)) ∧
       (∀ n, s.control.decoder = .space n → w < ms 40 →
         (ms 5 ≤ w → w ≤ ms 15 → n < 8 → moves .lcmdFallingEdge false (.pulse n)) ∧
         (w < ms 5 ∨ ms 15 < w ∨ 8 ≤ n → abandons .lcmdFallingEdge false)) ∧
       (s.control.decoder = .recover → w < ms 40 → moves .lcmdFallingEdge false .recover) ∧
       (s.control.decoder = .recover → ms 40 ≤ w →
         exec .lcmdSpellTimeout s = .next { s with control := { s.control with decoder := .idle } })) ∧
     (s.pins.lcmdHigh = false →
       (s.control.decoder = .lead →
         (ms 20 ≤ w → w ≤ ms 60 → moves .lcmdRisingEdge true .gap) ∧ (w < ms 20 → abandons .lcmdRisingEdge true)) ∧
       (∀ n, s.control.decoder = .pulse n →
         (ms 5 ≤ w → w ≤ ms 15 → moves .lcmdRisingEdge true (.space (n + 1))) ∧
         (w < ms 5 → abandons .lcmdRisingEdge true)) ∧
       (s.control.decoder = .recover → moves .lcmdRisingEdge true .recover) ∧
       ((s.control.decoder = .lead ∧ ms 60 < w) ∨ (∃ n, s.control.decoder = .pulse n ∧ ms 15 < w) →
         exec .lcmdSpellTimeout s = .next { s with
           control := { s.control with decoder := .recover, errors := min 65535 (s.control.errors + 1) } }))) ∧
  (∀ (n : Nat) (s : State), s.resetHeld = false → ms 40 ≤ s.spell →
     (s.control.decoder = .gap ∧ n = 0) ∨ (s.control.decoder = .space n ∧ ¬(1 ≤ n ∧ n ≤ 5)) →
     exec .lineCommandBadCount s = .next { s with
       control := { s.control with decoder := .idle, errors := min 65535 (s.control.errors + 1) } })

/-! ## Causes (chapter 11) -/

/-- Raises, CAUSE TAKE and CAUSE ENABLE (R207 to R210). A raised cause is pending once, with its latest detail, and an enabled one
asserts the line for 500 ms; it is raised on one link or on all three. A take answers the highest pending cause with its detail, its enabled flag and the
number still pending, and removes it, in the priority order of R208; on an empty set it changes nothing. An enable set is replaced whole, a mask that names no
cause is refused with RANGE, and the pending set stays. Both release the line where no enabled cause remains, and touch no other
link. That the first byte of the enable mask is its more significant one is the model's choice (log entry 28). -/
def Obligations.CauseRequests : Prop :=
  [Cause.haltEntered, .rejectFault, .cellFault, .zeroLost, .trackSlip, .trackOverflow, .valveSuspect, .alert, .calDone,
    .recipeRetired, .canListLevel, .linkError, .powerUp].map Cause.code = [1, 2, 3, 4, 5, 6, 7, 8, 9, 10, 11, 12, 13] ∧
  (∀ (a : Attention) (now : Moment) (c : Cause) (d : Int), a.ordered →
    let b := a.raised now c d
    (∀ q, q ∈ b.pending ↔ q = { cause := c, detail := d } ∨ (q ∈ a.pending ∧ q.cause ≠ c)) ∧ b.ordered ∧
    b.enabled = a.enabled ∧ b.hold = if c ∈ a.enabled then some (now + 10000000) else a.hold) ∧
  (∀ (l k : Link) (c : Cause) (d : Int) (s : State),
    (raiseAll c d s).att k = (s.att k).raised s.now c d ∧
    (raiseOn l c d s).att k = if k = l then (s.att k).raised s.now c d else s.att k) ∧
  ∀ (l : Link) (s : State),
    (s.awaits ⟨l, Kind.causeTake.code, [], none⟩ →
      ((s.att l).pending = [] →
        exec (.causeTake l []) s = .next (answer l 0x1B (.ok [0, 0, 0, 0, 0, 0, 0]) s)) ∧
      (∀ q rest, (s.att l).pending = q :: rest → (s.att l).ordered → (∀ x ∈ rest, q.cause.code < x.cause.code) ∧
        exec (.causeTake l []) s = .next (answer l 0x1B
          (.ok (u8 q.cause.code ++ s32 q.detail ++ [if q.cause ∈ (s.att l).enabled then 1 else 0] ++ u8 rest.length))
          (s.setAtt l { s.att l with
            pending := rest
            hold := if ∃ x ∈ rest, x.cause ∈ (s.att l).enabled then (s.att l).hold else none })))) ∧
    (∀ b1 b0 : Byte, s.awaits ⟨l, Kind.causeEnable.code, [b1, b0], none⟩ →
      (32 ≤ b1.toNat → exec (.causeEnable l [b1, b0]) s = .next (answer l 0x1C (.refused .range) s)) ∧
      (b1.toNat < 32 → ∃ named : List Cause,
        (∀ c : Cause, c ∈ named ↔ (b1.toNat * 256 + b0.toNat) / 2 ^ (c.code - 1) % 2 = 1) ∧
        exec (.causeEnable l [b1, b0]) s = .next (answer l 0x1C (.ok ([b1, b0] ++ u8 (s.att l).pending.length))
          (s.setAtt l { s.att l with
            enabled := named
            hold := if ∃ x ∈ (s.att l).pending, x.cause ∈ named then (s.att l).hold else none }))))

/-! ## The bytes of the answers (chapter 12) -/

/-- The bytes of the answers (R148, R205, R213, R214, sections 12.1 to 12.5): integers most significant byte first, a negative one
in two's complement; sets as masks; the codes of the enumerated values; and the layouts of STATUS READ, the capture record, the
record view, the can summary, the valve view and the settings records. That the line stop output, the cell fault condition and the
attention line, for whose values R214 lists no code, are flag bytes, 1 for asserted or present, is the model's choice (log entry
25), and so is the byte order of a two-byte mask (log entry 28). -/
def Obligations.AnswerLayouts : Prop :=
  ((∀ n, n < 256 → ∃ a : Byte, u8 n = [a] ∧ a.toNat = n) ∧
   (∀ n, n < 65536 → ∃ a b : Byte, u16 n = [a, b] ∧ a.toNat * 256 + b.toNat = n) ∧
   (∀ n, n < 16777216 → ∃ a b c : Byte, u24 n = [a, b, c] ∧ (a.toNat * 256 + b.toNat) * 256 + c.toNat = n) ∧
   (∀ n, n < 4294967296 → ∃ a b c d : Byte, u32 n = [a, b, c, d] ∧
     ((a.toNat * 256 + b.toNat) * 256 + c.toNat) * 256 + d.toNat = n) ∧
   (∀ x : Int, -32768 ≤ x → x < 32768 → s16 x = u16 (if x < 0 then x + 65536 else x).toNat) ∧
   (∀ x : Int, -8388608 ≤ x → x < 8388608 → s24 x = u24 (if x < 0 then x + 16777216 else x).toNat) ∧
   (∀ x : Int, -2147483648 ≤ x → x < 2147483648 → s32 x = u32 (if x < 0 then x + 4294967296 else x).toNat) ∧
   (∀ (rs : List Reason) (r : Reason), maskOf Reason.inOrder rs < 4096 ∧
     (maskOf Reason.inOrder rs / 2 ^ (r.rank - 1) % 2 = 1 ↔ r ∈ rs))) ∧
  ([OpState.config, .ready, .run, .halt].map OpState.code = [0, 1, 2, 3] ∧
   [FillStatus.normal, .short, .blockedFill].map FillStatus.code = [0, 1, 2] ∧
   [Origin.filled, .orphan].map Origin.code = [0, 1] ∧
   [Stage.filled, .onPlatform, .weighed, .read, .missed].map Stage.code = [0, 1, 2, 3, 4] ∧
   [none, some (.noReading .bridged), some (.noReading .tooFew), some (.noReading .zeroLost), some (.noReading .cellFault),
     some (.noReading .flushedDuringDwell)].map readingCode = [0, 2, 3, 4, 5, 6] ∧
   (∀ g n : Int, readingCode (some (.valid g n)) = 1) ∧
   [CodeStatus.notYet, .matched, .mismatch, .noRead, .garbled, .notChecked].map CodeStatus.code = [0, 1, 2, 3, 4, 5] ∧
   Verdict.code .accept = 0 ∧ (∀ r : Reason, Verdict.code (.reason r) = r.rank) ∧ Verdict.code .flushed = 13 ∧
   [ValveState.unused, .active, .probation 1, .suspect, .blocked .filler].map ValveState.code = [0, 1, 2, 3, 4] ∧
   [Link.filler, .supervisor, .quality].map holderCode = [1, 2, 3] ∧
   [Platform.idle, .empty, .waitClear].map Platform.code = [0, 1, 3] ∧ (∀ w, Platform.code (.dwell w) = 2) ∧
   [ZeroState.normal, .zeroFault].map ZeroState.code = [0, 1] ∧
   [CaptureKind.none, .zero, .span].map CaptureKind.code = [0, 1, 2] ∧
   [CaptureOutcome.none, .inProgress, .calOk, .calRange, .calAborted].map CaptureOutcome.code = [0, 1, 2, 3, 4] ∧
   [AbortCause.eye, .start, .restart, .calLoad].map AbortCause.code = [1, 2, 3, 4] ∧
   [Status.ok, .state, .link, .length, .range, .held, .queueFull, .recipeBusy, .busy, .unknown].map Status.code =
     [0, 1, 2, 3, 4, 5, 6, 7, 8, 9]) ∧
  (let flag := fun b : Bool => (if b = true then [1] else [0] : List Byte)
   let present := fun g : Option Generation => match g with
     | some x => [1, x]
     | none => [0, 0]
   let weights := fun rd : Option Reading => match rd with
     | some (.valid g n) => s24 g ++ s24 n
     | _ => [0, 0, 0, 0, 0, 0]
   let valveByte := fun v : Option Nat => u8 (v.getD 0)
   let reasons := fun rs : List Reason => u16 (maskOf Reason.inOrder rs)
   (∀ (l : Link) (s : State), statusBytes l s =
     u8 s.control.state.code ++ flag s.control.lineStop ++ u16 s.control.errors ++
     (match s.control.lastCommand with
       | some k => u8 k.number ++ [if k.taken = true then 0 else 1]
       | none => [0, 0]) ++
     flag s.store.layout.isSome ++ flag s.store.calibration.isSome ++ flag s.store.current.isSome ++
     present (s.store.current.map HeldRecipe.generation) ++ present (s.store.previous.map HeldRecipe.generation) ++
     u8 ((s.store.previous.map HeldRecipe.count).getD 0) ++
     u24 s.tracking.position.toNat ++ u8 s.tracking.queue.length ++ u16 s.tracking.serial.toNat ++ u8 s.tracking.slip ++
     u8 s.weigh.platform.code ++ u8 s.weigh.zeroState.code ++ flag s.weigh.cellFault ++ u24 (s.weigh.fz.getD 0) ++
     u24 (s.weigh.latest.getD 0) ++
     u8 (if s.weigh.capture.outcome = .inProgress then s.weigh.capture.kind.code else 0) ++
     flag s.gate.drive.isSome ++ flag s.gate.confirmLevel ++ u8 s.gate.windows.length ++ u8 s.gate.unconfirmed ++
     u16 s.canList.unread ++ u16 s.canList.level ++ s16 s.dose.lineOffset ++
     u8 ((if s.dose.freeze.line = true then 1 else 0) + (if s.dose.freeze.supervisor = true then 2 else 0)) ++
     u8 s.dose.centering ++ u16 s.code.stray ++ [if s.code.flow = .held then 1 else 0] ++
     u8 (s.att l).pending.length ++ flag (s.att l).hold.isSome) ∧
   (∀ c : Capture, captureBytes c = u8 c.kind.code ++ u8 c.outcome.code ++ u8 c.count ++ u24 (c.mean.getD 0) ++
     u24 (c.testMass.getD 0) ++ u24 (c.newValue.getD 0) ++ u8 ((c.abortCause.map AbortCause.code).getD 0)) ∧
   (∀ (x : Position) (c : CanRecord), recordViewBytes x c = u16 c.serial.toNat ++ u8 c.origin.code ++ valveByte c.valve ++
     [c.generation] ++ s24 (posDiff x c.discharge) ++ u16 (c.doseUsed.getD 0) ++ u8 c.fillStatus.code ++ u8 c.stage.code ++
     u8 (readingCode c.reading) ++ weights c.reading ++ u8 c.codeStatus.code ++ reasons c.reasons) ∧
   (∀ m : CanSummary, summaryBytes m = u16 m.serial.toNat ++ u8 m.origin.code ++ [m.generation] ++ valveByte m.valve ++
     u16 (m.doseUsed.getD 0) ++ weights m.reading ++ u8 (readingCode m.reading) ++
     (match m.code with
       | some q => u8 q.length ++ q
       | none => [0]) ++ u8 m.codeStatus.code ++ reasons m.reasons ++ u8 m.verdict.code ++ flag m.unconfirmed) ∧
   (∀ (v : Nat) (s : State),
     let e := s.valve v
     valveViewBytes v s = u8 v ++ u8 e.state.code ++
       (match e.state with
         | .blocked h => u8 (holderCode h)
         | _ => [0]) ++
       s16 e.baseOffset ++ s32 e.accumulator ++
       s16 (match s.store.current with
         | some h => trimOf e.accumulator h.recipe.shift
         | none => 0) ++
       u8 e.limitRun ++ u8 e.ootRun ++
       (match e.state with
         | .probation n => u8 n
         | _ => [0]) ++
       u32 e.weighed ++ u32 e.rejected ++ u8 e.netWindow.length ++ e.netWindow.flatMap s24 ++ flag e.alertArmed ++
       u16 e.lastDose ++ u16 (if s.control.state = .config then 0 else s.doseOf e)) ∧
   (∀ r : Layout, layoutBytes r = u8 r.valveCount ++ u8 r.divider ++ u16 r.platformDistance ++ u16 r.platformWindow ++
     u16 r.readerDistance ++ u16 r.readerWindow ++ u16 r.rejectDistance ++ u16 r.maxDwell ++ u8 r.slipAlarm ++
     u8 r.gatePulse ++ u8 r.confirmTime ∧ presentBytes layoutBytes (some r) = [1] ++ layoutBytes r) ∧
   (∀ k : Calibration, calibrationBytes k = u8 k.periodSetting ++ u24 k.span ++ u24 k.zeroFigure ++ u8 k.zeroRate ++
     u16 k.zeroBand ++ u8 k.settleSkip ++ u8 k.tailDrop ++ u8 k.minCount ++ u8 k.zeroSettle ∧
     presentBytes calibrationBytes (some k) = [1] ++ calibrationBytes k) ∧
   (∀ h : HeldRecipe,
     let r := h.recipe
     presentBytes heldRecipeBytes (some h) = [1, h.generation] ++ u24 r.targetNet ++ u16 r.tolUnder ++ u16 r.tolOver ++
       u16 r.tareNominal ++ u16 r.nominalDose ++ u16 r.doseMin ++ u16 r.doseMax ++ u8 r.gain ++ u8 r.shift ++
       u16 r.trimLimit ++ u16 r.deadBand ++ u8 r.limitAlarm ++ u8 r.ootAlarm ++ u16 r.lineLimit ++
       u8 r.centerThreshold ++ u8 r.centerEvery ++ u8 r.probationCount ++ u16 r.alertBand ++ flag r.codeRequired ++ [0] ++
       (match r.codePattern with
         | some q => u8 q.length ++ q
         | none => [0])) ∧
   presentBytes layoutBytes none = [0] ∧ presentBytes calibrationBytes none = [0] ∧
   presentBytes heldRecipeBytes none = [0])
end

