-- ==== Sys2Proof/Laws/State.lean ====
section
/-! SUPPORT. The fields of a state after each named update, and the values of the links after one of them is replaced. -/

namespace Sys2Proof.Machine

variable (s : State)

/-! ### `setLink` -/

@[simp] theorem setLink_now (l : Link) (x : MasterLink) : (s.setLink l x).now = s.now := rfl
@[simp] theorem setLink_choices (l : Link) (x : MasterLink) : (s.setLink l x).choices = s.choices := rfl
@[simp] theorem setLink_resetHeld (l : Link) (x : MasterLink) : (s.setLink l x).resetHeld = s.resetHeld := rfl
@[simp] theorem setLink_pins (l : Link) (x : MasterLink) : (s.setLink l x).pins = s.pins := rfl
@[simp] theorem setLink_tracking (l : Link) (x : MasterLink) : (s.setLink l x).tracking = s.tracking := rfl
@[simp] theorem setLink_weigh (l : Link) (x : MasterLink) : (s.setLink l x).weigh = s.weigh := rfl
@[simp] theorem setLink_code (l : Link) (x : MasterLink) : (s.setLink l x).code = s.code := rfl
@[simp] theorem setLink_gate (l : Link) (x : MasterLink) : (s.setLink l x).gate = s.gate := rfl
@[simp] theorem setLink_canList (l : Link) (x : MasterLink) : (s.setLink l x).canList = s.canList := rfl
@[simp] theorem setLink_dose (l : Link) (x : MasterLink) : (s.setLink l x).dose = s.dose := rfl
@[simp] theorem setLink_store (l : Link) (x : MasterLink) : (s.setLink l x).store = s.store := rfl
@[simp] theorem setLink_control (l : Link) (x : MasterLink) : (s.setLink l x).control = s.control := rfl
@[simp] theorem setLink_links (l : Link) (x : MasterLink) : (s.setLink l x).links = s.links.set l x := rfl
@[simp] theorem setLink_reader (l : Link) (x : MasterLink) : (s.setLink l x).reader = s.reader := rfl
@[simp] theorem setLink_attention (l : Link) (x : MasterLink) : (s.setLink l x).attention = s.attention := rfl
@[simp] theorem setLink_pending (l : Link) (x : MasterLink) : (s.setLink l x).pending = s.pending := rfl

/-! ### `setAtt` -/

@[simp] theorem setAtt_now (l : Link) (x : Attention) : (s.setAtt l x).now = s.now := rfl
@[simp] theorem setAtt_choices (l : Link) (x : Attention) : (s.setAtt l x).choices = s.choices := rfl
@[simp] theorem setAtt_resetHeld (l : Link) (x : Attention) : (s.setAtt l x).resetHeld = s.resetHeld := rfl
@[simp] theorem setAtt_pins (l : Link) (x : Attention) : (s.setAtt l x).pins = s.pins := rfl
@[simp] theorem setAtt_tracking (l : Link) (x : Attention) : (s.setAtt l x).tracking = s.tracking := rfl
@[simp] theorem setAtt_weigh (l : Link) (x : Attention) : (s.setAtt l x).weigh = s.weigh := rfl
@[simp] theorem setAtt_code (l : Link) (x : Attention) : (s.setAtt l x).code = s.code := rfl
@[simp] theorem setAtt_gate (l : Link) (x : Attention) : (s.setAtt l x).gate = s.gate := rfl
@[simp] theorem setAtt_canList (l : Link) (x : Attention) : (s.setAtt l x).canList = s.canList := rfl
@[simp] theorem setAtt_dose (l : Link) (x : Attention) : (s.setAtt l x).dose = s.dose := rfl
@[simp] theorem setAtt_store (l : Link) (x : Attention) : (s.setAtt l x).store = s.store := rfl
@[simp] theorem setAtt_control (l : Link) (x : Attention) : (s.setAtt l x).control = s.control := rfl
@[simp] theorem setAtt_links (l : Link) (x : Attention) : (s.setAtt l x).links = s.links := rfl
@[simp] theorem setAtt_reader (l : Link) (x : Attention) : (s.setAtt l x).reader = s.reader := rfl
@[simp] theorem setAtt_attention (l : Link) (x : Attention) : (s.setAtt l x).attention = s.attention.set l x := rfl
@[simp] theorem setAtt_pending (l : Link) (x : Attention) : (s.setAtt l x).pending = s.pending := rfl

/-! ### `setTracking` -/

@[simp] theorem setTracking_now (x : Tracking) : (s.setTracking x).now = s.now := rfl
@[simp] theorem setTracking_choices (x : Tracking) : (s.setTracking x).choices = s.choices := rfl
@[simp] theorem setTracking_resetHeld (x : Tracking) : (s.setTracking x).resetHeld = s.resetHeld := rfl
@[simp] theorem setTracking_pins (x : Tracking) : (s.setTracking x).pins = s.pins := rfl
@[simp] theorem setTracking_tracking (x : Tracking) : (s.setTracking x).tracking = x := rfl
@[simp] theorem setTracking_weigh (x : Tracking) : (s.setTracking x).weigh = s.weigh := rfl
@[simp] theorem setTracking_code (x : Tracking) : (s.setTracking x).code = s.code := rfl
@[simp] theorem setTracking_gate (x : Tracking) : (s.setTracking x).gate = s.gate := rfl
@[simp] theorem setTracking_canList (x : Tracking) : (s.setTracking x).canList = s.canList := rfl
@[simp] theorem setTracking_dose (x : Tracking) : (s.setTracking x).dose = s.dose := rfl
@[simp] theorem setTracking_store (x : Tracking) : (s.setTracking x).store = s.store := rfl
@[simp] theorem setTracking_control (x : Tracking) : (s.setTracking x).control = s.control := rfl
@[simp] theorem setTracking_links (x : Tracking) : (s.setTracking x).links = s.links := rfl
@[simp] theorem setTracking_reader (x : Tracking) : (s.setTracking x).reader = s.reader := rfl
@[simp] theorem setTracking_attention (x : Tracking) : (s.setTracking x).attention = s.attention := rfl
@[simp] theorem setTracking_pending (x : Tracking) : (s.setTracking x).pending = s.pending := rfl

/-! ### `setWeigh` -/

@[simp] theorem setWeigh_now (x : WeighUnit) : (s.setWeigh x).now = s.now := rfl
@[simp] theorem setWeigh_choices (x : WeighUnit) : (s.setWeigh x).choices = s.choices := rfl
@[simp] theorem setWeigh_resetHeld (x : WeighUnit) : (s.setWeigh x).resetHeld = s.resetHeld := rfl
@[simp] theorem setWeigh_pins (x : WeighUnit) : (s.setWeigh x).pins = s.pins := rfl
@[simp] theorem setWeigh_tracking (x : WeighUnit) : (s.setWeigh x).tracking = s.tracking := rfl
@[simp] theorem setWeigh_weigh (x : WeighUnit) : (s.setWeigh x).weigh = x := rfl
@[simp] theorem setWeigh_code (x : WeighUnit) : (s.setWeigh x).code = s.code := rfl
@[simp] theorem setWeigh_gate (x : WeighUnit) : (s.setWeigh x).gate = s.gate := rfl
@[simp] theorem setWeigh_canList (x : WeighUnit) : (s.setWeigh x).canList = s.canList := rfl
@[simp] theorem setWeigh_dose (x : WeighUnit) : (s.setWeigh x).dose = s.dose := rfl
@[simp] theorem setWeigh_store (x : WeighUnit) : (s.setWeigh x).store = s.store := rfl
@[simp] theorem setWeigh_control (x : WeighUnit) : (s.setWeigh x).control = s.control := rfl
@[simp] theorem setWeigh_links (x : WeighUnit) : (s.setWeigh x).links = s.links := rfl
@[simp] theorem setWeigh_reader (x : WeighUnit) : (s.setWeigh x).reader = s.reader := rfl
@[simp] theorem setWeigh_attention (x : WeighUnit) : (s.setWeigh x).attention = s.attention := rfl
@[simp] theorem setWeigh_pending (x : WeighUnit) : (s.setWeigh x).pending = s.pending := rfl

/-! ### `setCode` -/

@[simp] theorem setCode_now (x : CodeUnit) : (s.setCode x).now = s.now := rfl
@[simp] theorem setCode_choices (x : CodeUnit) : (s.setCode x).choices = s.choices := rfl
@[simp] theorem setCode_resetHeld (x : CodeUnit) : (s.setCode x).resetHeld = s.resetHeld := rfl
@[simp] theorem setCode_pins (x : CodeUnit) : (s.setCode x).pins = s.pins := rfl
@[simp] theorem setCode_tracking (x : CodeUnit) : (s.setCode x).tracking = s.tracking := rfl
@[simp] theorem setCode_weigh (x : CodeUnit) : (s.setCode x).weigh = s.weigh := rfl
@[simp] theorem setCode_code (x : CodeUnit) : (s.setCode x).code = x := rfl
@[simp] theorem setCode_gate (x : CodeUnit) : (s.setCode x).gate = s.gate := rfl
@[simp] theorem setCode_canList (x : CodeUnit) : (s.setCode x).canList = s.canList := rfl
@[simp] theorem setCode_dose (x : CodeUnit) : (s.setCode x).dose = s.dose := rfl
@[simp] theorem setCode_store (x : CodeUnit) : (s.setCode x).store = s.store := rfl
@[simp] theorem setCode_control (x : CodeUnit) : (s.setCode x).control = s.control := rfl
@[simp] theorem setCode_links (x : CodeUnit) : (s.setCode x).links = s.links := rfl
@[simp] theorem setCode_reader (x : CodeUnit) : (s.setCode x).reader = s.reader := rfl
@[simp] theorem setCode_attention (x : CodeUnit) : (s.setCode x).attention = s.attention := rfl
@[simp] theorem setCode_pending (x : CodeUnit) : (s.setCode x).pending = s.pending := rfl

/-! ### `setReader` -/

@[simp] theorem setReader_now (x : Port) : (s.setReader x).now = s.now := rfl
@[simp] theorem setReader_choices (x : Port) : (s.setReader x).choices = s.choices := rfl
@[simp] theorem setReader_resetHeld (x : Port) : (s.setReader x).resetHeld = s.resetHeld := rfl
@[simp] theorem setReader_pins (x : Port) : (s.setReader x).pins = s.pins := rfl
@[simp] theorem setReader_tracking (x : Port) : (s.setReader x).tracking = s.tracking := rfl
@[simp] theorem setReader_weigh (x : Port) : (s.setReader x).weigh = s.weigh := rfl
@[simp] theorem setReader_code (x : Port) : (s.setReader x).code = s.code := rfl
@[simp] theorem setReader_gate (x : Port) : (s.setReader x).gate = s.gate := rfl
@[simp] theorem setReader_canList (x : Port) : (s.setReader x).canList = s.canList := rfl
@[simp] theorem setReader_dose (x : Port) : (s.setReader x).dose = s.dose := rfl
@[simp] theorem setReader_store (x : Port) : (s.setReader x).store = s.store := rfl
@[simp] theorem setReader_control (x : Port) : (s.setReader x).control = s.control := rfl
@[simp] theorem setReader_links (x : Port) : (s.setReader x).links = s.links := rfl
@[simp] theorem setReader_reader (x : Port) : (s.setReader x).reader = x := rfl
@[simp] theorem setReader_attention (x : Port) : (s.setReader x).attention = s.attention := rfl
@[simp] theorem setReader_pending (x : Port) : (s.setReader x).pending = s.pending := rfl

/-! ### `setStore` -/

@[simp] theorem setStore_now (x : Store) : (s.setStore x).now = s.now := rfl
@[simp] theorem setStore_choices (x : Store) : (s.setStore x).choices = s.choices := rfl
@[simp] theorem setStore_resetHeld (x : Store) : (s.setStore x).resetHeld = s.resetHeld := rfl
@[simp] theorem setStore_pins (x : Store) : (s.setStore x).pins = s.pins := rfl
@[simp] theorem setStore_tracking (x : Store) : (s.setStore x).tracking = s.tracking := rfl
@[simp] theorem setStore_weigh (x : Store) : (s.setStore x).weigh = s.weigh := rfl
@[simp] theorem setStore_code (x : Store) : (s.setStore x).code = s.code := rfl
@[simp] theorem setStore_gate (x : Store) : (s.setStore x).gate = s.gate := rfl
@[simp] theorem setStore_canList (x : Store) : (s.setStore x).canList = s.canList := rfl
@[simp] theorem setStore_dose (x : Store) : (s.setStore x).dose = s.dose := rfl
@[simp] theorem setStore_store (x : Store) : (s.setStore x).store = x := rfl
@[simp] theorem setStore_control (x : Store) : (s.setStore x).control = s.control := rfl
@[simp] theorem setStore_links (x : Store) : (s.setStore x).links = s.links := rfl
@[simp] theorem setStore_reader (x : Store) : (s.setStore x).reader = s.reader := rfl
@[simp] theorem setStore_attention (x : Store) : (s.setStore x).attention = s.attention := rfl
@[simp] theorem setStore_pending (x : Store) : (s.setStore x).pending = s.pending := rfl

/-! ### `setControl` -/

@[simp] theorem setControl_now (x : Control) : (s.setControl x).now = s.now := rfl
@[simp] theorem setControl_choices (x : Control) : (s.setControl x).choices = s.choices := rfl
@[simp] theorem setControl_resetHeld (x : Control) : (s.setControl x).resetHeld = s.resetHeld := rfl
@[simp] theorem setControl_pins (x : Control) : (s.setControl x).pins = s.pins := rfl
@[simp] theorem setControl_tracking (x : Control) : (s.setControl x).tracking = s.tracking := rfl
@[simp] theorem setControl_weigh (x : Control) : (s.setControl x).weigh = s.weigh := rfl
@[simp] theorem setControl_code (x : Control) : (s.setControl x).code = s.code := rfl
@[simp] theorem setControl_gate (x : Control) : (s.setControl x).gate = s.gate := rfl
@[simp] theorem setControl_canList (x : Control) : (s.setControl x).canList = s.canList := rfl
@[simp] theorem setControl_dose (x : Control) : (s.setControl x).dose = s.dose := rfl
@[simp] theorem setControl_store (x : Control) : (s.setControl x).store = s.store := rfl
@[simp] theorem setControl_control (x : Control) : (s.setControl x).control = x := rfl
@[simp] theorem setControl_links (x : Control) : (s.setControl x).links = s.links := rfl
@[simp] theorem setControl_reader (x : Control) : (s.setControl x).reader = s.reader := rfl
@[simp] theorem setControl_attention (x : Control) : (s.setControl x).attention = s.attention := rfl
@[simp] theorem setControl_pending (x : Control) : (s.setControl x).pending = s.pending := rfl

/-! ### `setQueue` -/

@[simp] theorem setQueue_now (x : List CanRecord) : (s.setQueue x).now = s.now := rfl
@[simp] theorem setQueue_choices (x : List CanRecord) : (s.setQueue x).choices = s.choices := rfl
@[simp] theorem setQueue_resetHeld (x : List CanRecord) : (s.setQueue x).resetHeld = s.resetHeld := rfl
@[simp] theorem setQueue_pins (x : List CanRecord) : (s.setQueue x).pins = s.pins := rfl
@[simp] theorem setQueue_tracking (x : List CanRecord) : (s.setQueue x).tracking = { s.tracking with queue := x } := rfl
@[simp] theorem setQueue_weigh (x : List CanRecord) : (s.setQueue x).weigh = s.weigh := rfl
@[simp] theorem setQueue_code (x : List CanRecord) : (s.setQueue x).code = s.code := rfl
@[simp] theorem setQueue_gate (x : List CanRecord) : (s.setQueue x).gate = s.gate := rfl
@[simp] theorem setQueue_canList (x : List CanRecord) : (s.setQueue x).canList = s.canList := rfl
@[simp] theorem setQueue_dose (x : List CanRecord) : (s.setQueue x).dose = s.dose := rfl
@[simp] theorem setQueue_store (x : List CanRecord) : (s.setQueue x).store = s.store := rfl
@[simp] theorem setQueue_control (x : List CanRecord) : (s.setQueue x).control = s.control := rfl
@[simp] theorem setQueue_links (x : List CanRecord) : (s.setQueue x).links = s.links := rfl
@[simp] theorem setQueue_reader (x : List CanRecord) : (s.setQueue x).reader = s.reader := rfl
@[simp] theorem setQueue_attention (x : List CanRecord) : (s.setQueue x).attention = s.attention := rfl
@[simp] theorem setQueue_pending (x : List CanRecord) : (s.setQueue x).pending = s.pending := rfl

/-! ### `setValve` -/

@[simp] theorem setValve_now (v : Nat) (x : Valve) : (s.setValve v x).now = s.now := rfl
@[simp] theorem setValve_choices (v : Nat) (x : Valve) : (s.setValve v x).choices = s.choices := rfl
@[simp] theorem setValve_resetHeld (v : Nat) (x : Valve) : (s.setValve v x).resetHeld = s.resetHeld := rfl
@[simp] theorem setValve_pins (v : Nat) (x : Valve) : (s.setValve v x).pins = s.pins := rfl
@[simp] theorem setValve_tracking (v : Nat) (x : Valve) : (s.setValve v x).tracking = s.tracking := rfl
@[simp] theorem setValve_weigh (v : Nat) (x : Valve) : (s.setValve v x).weigh = s.weigh := rfl
@[simp] theorem setValve_code (v : Nat) (x : Valve) : (s.setValve v x).code = s.code := rfl
@[simp] theorem setValve_gate (v : Nat) (x : Valve) : (s.setValve v x).gate = s.gate := rfl
@[simp] theorem setValve_canList (v : Nat) (x : Valve) : (s.setValve v x).canList = s.canList := rfl
@[simp] theorem setValve_dose (v : Nat) (x : Valve) : (s.setValve v x).dose = { s.dose with valves := s.dose.valves.set (v - 1) x } := rfl
@[simp] theorem setValve_store (v : Nat) (x : Valve) : (s.setValve v x).store = s.store := rfl
@[simp] theorem setValve_control (v : Nat) (x : Valve) : (s.setValve v x).control = s.control := rfl
@[simp] theorem setValve_links (v : Nat) (x : Valve) : (s.setValve v x).links = s.links := rfl
@[simp] theorem setValve_reader (v : Nat) (x : Valve) : (s.setValve v x).reader = s.reader := rfl
@[simp] theorem setValve_attention (v : Nat) (x : Valve) : (s.setValve v x).attention = s.attention := rfl
@[simp] theorem setValve_pending (v : Nat) (x : Valve) : (s.setValve v x).pending = s.pending := rfl

/-! ### `chosen` -/

@[simp] theorem chosen_now : s.chosen.now = s.now := rfl
@[simp] theorem chosen_choices : s.chosen.choices = s.choices + 1 := rfl
@[simp] theorem chosen_resetHeld : s.chosen.resetHeld = s.resetHeld := rfl
@[simp] theorem chosen_pins : s.chosen.pins = s.pins := rfl
@[simp] theorem chosen_tracking : s.chosen.tracking = s.tracking := rfl
@[simp] theorem chosen_weigh : s.chosen.weigh = s.weigh := rfl
@[simp] theorem chosen_code : s.chosen.code = s.code := rfl
@[simp] theorem chosen_gate : s.chosen.gate = s.gate := rfl
@[simp] theorem chosen_canList : s.chosen.canList = s.canList := rfl
@[simp] theorem chosen_dose : s.chosen.dose = s.dose := rfl
@[simp] theorem chosen_store : s.chosen.store = s.store := rfl
@[simp] theorem chosen_control : s.chosen.control = s.control := rfl
@[simp] theorem chosen_links : s.chosen.links = s.links := rfl
@[simp] theorem chosen_reader : s.chosen.reader = s.reader := rfl
@[simp] theorem chosen_attention : s.chosen.attention = s.attention := rfl
@[simp] theorem chosen_pending : s.chosen.pending = s.pending := rfl

/-! ### One value for each link -/

@[simp] theorem PerLink.get_set_same {α : Type} (p : PerLink α) (l : Link) (x : α) : (p.set l x).get l = x := by
  cases l <;> rfl

theorem PerLink.get_set_other {α : Type} (p : PerLink α) {l k : Link} (x : α) (h : k ≠ l) :
    (p.set l x).get k = p.get k := by
  cases l <;> cases k <;> first | rfl | exact absurd rfl h

@[simp] theorem PerLink.set_set {α : Type} (p : PerLink α) (l : Link) (x y : α) : (p.set l x).set l y = p.set l y := by
  cases l <;> rfl

@[simp] theorem PerLink.set_get {α : Type} (p : PerLink α) (l : Link) : p.set l (p.get l) = p := by
  cases l <;> rfl

@[simp] theorem setLink_link_same (l : Link) (x : MasterLink) : (s.setLink l x).link l = x :=
  PerLink.get_set_same s.links l x

theorem setLink_link_other {l k : Link} (x : MasterLink) (h : k ≠ l) : (s.setLink l x).link k = s.link k :=
  PerLink.get_set_other s.links x h

@[simp] theorem setLink_setLink (l : Link) (x y : MasterLink) : (s.setLink l x).setLink l y = s.setLink l y := by
  simp [State.setLink]

@[simp] theorem setLink_link (l : Link) : s.setLink l (s.link l) = s := by
  simp [State.setLink, State.link]

@[simp] theorem setAtt_att_same (l : Link) (x : Attention) : (s.setAtt l x).att l = x :=
  PerLink.get_set_same s.attention l x

theorem setAtt_att_other {l k : Link} (x : Attention) (h : k ≠ l) : (s.setAtt l x).att k = s.att k :=
  PerLink.get_set_other s.attention x h

@[simp] theorem setLink_att (l k : Link) (x : MasterLink) : (s.setLink l x).att k = s.att k := rfl

@[simp] theorem setAtt_link (l k : Link) (x : Attention) : (s.setAtt l x).link k = s.link k := rfl

end Sys2Proof.Machine
end

