-- ==== Sys2Proof/Laws/Frames.lean ====
section
/-! SUPPORT. What each shared operation may change: one lemma for each, saying that it leaves every other field as it was. -/

namespace Sys2Proof.Machine

/-! ## Causes and the passage to HALT -/

theorem enterHalt_frame (c : Cause) (s : State) :
    ∃ a k, enterHalt c s = { s with attention := a, control := k } := by
  unfold enterHalt; split
  · exact ⟨_, _, rfl⟩
  · exact ⟨_, _, rfl⟩

theorem haltReason_frame (c : Cause) (d : Int) (s : State) :
    ∃ a k, haltReason c d s = { s with attention := a, control := k } := by
  obtain ⟨a, k, h⟩ := enterHalt_frame c (raiseAll c d s)
  exact ⟨a, k, h⟩

/-! ## The settings store and the can list -/

theorem departed_frame (g : Generation) (s : State) :
    ∃ a st, departed g s = { s with attention := a, store := st } := by
  unfold departed; split
  · split
    · split
      · exact ⟨_, _, rfl⟩
      · exact ⟨_, _, rfl⟩
    · exact ⟨_, _, rfl⟩
  · exact ⟨_, _, rfl⟩

theorem appendSummary_frame (m : CanSummary) (s : State) :
    ∃ a l, appendSummary m s = { s with attention := a, canList := l } := by
  unfold appendSummary; simp only []; split <;> exact ⟨_, _, rfl⟩

theorem flushRecords_frame (q : List CanRecord) (s : State) :
    ∃ a l st, flushRecords q s = { s with attention := a, canList := l, store := st } := by
  induction q generalizing s with
  | nil => exact ⟨_, _, _, rfl⟩
  | cons c rest ih =>
    obtain ⟨a, l, h⟩ := appendSummary_frame (summaryOf c .flushed false) s
    obtain ⟨a', st, h'⟩ := departed_frame c.generation { s with attention := a, canList := l }
    obtain ⟨a'', l', st', h''⟩ := ih { s with attention := a', canList := l, store := st }
    exact ⟨a'', l', st', by rw [flushRecords, h, h', h'']⟩

/-! ## Captures and weighings -/

theorem abortCapture_frame (c : AbortCause) (s : State) :
    ∃ a w, abortCapture c s = { s with attention := a, weigh := w } := by
  unfold abortCapture; split <;> exact ⟨_, _, rfl⟩

theorem discardWeighing_frame (s : State) : ∃ w, discardWeighing s = { s with weigh := w } := by
  unfold discardWeighing; split <;> exact ⟨_, rfl⟩

theorem flushQueue_frame (s : State) :
    ∃ a l st w, flushQueue s =
      { s with attention := a, canList := l, store := st, tracking := { s.tracking with queue := [] }, weigh := w } := by
  obtain ⟨a, l, st, h⟩ := flushRecords_frame s.tracking.queue (s.setQueue [])
  obtain ⟨w, h'⟩ := discardWeighing_frame (flushRecords s.tracking.queue (s.setQueue []))
  exact ⟨a, l, st, w, by rw [flushQueue, h', h]; rfl⟩

theorem beginZeroCapture_frame (s : State) :
    ∃ a w, beginZeroCapture s = { s with attention := a, weigh := w } := by
  unfold beginZeroCapture; simp only []; split
  · obtain ⟨a, w, h⟩ := abortCapture_frame .eye (beginCapture .zero none s)
    exact ⟨a, w, h⟩
  · exact ⟨_, _, rfl⟩

theorem takeIntoCapture_frame (f : Nat) (s : State) :
    ∃ a w st, takeIntoCapture f s = { s with attention := a, weigh := w, store := st } := by
  unfold takeIntoCapture; simp only []; split
  · split
    · exact ⟨_, _, _, rfl⟩
    · unfold completeSpan; simp only []; split <;> exact ⟨_, _, _, rfl⟩
  · exact ⟨_, _, _, rfl⟩

theorem zeroTrack_frame (f : Nat) (s : State) :
    ∃ a w, zeroTrack f s = { s with attention := a, weigh := w } := by
  unfold zeroTrack; split
  · exact ⟨_, _, rfl⟩
  · simp only []; split
    · exact ⟨_, _, rfl⟩
    · split <;> exact ⟨_, _, rfl⟩

theorem validConversion_frame (f : Nat) (s : State) :
    ∃ a w st, validConversion f s = { s with attention := a, weigh := w, store := st } := by
  have settle : ∀ t : State, ∃ w, countSettle t = { t with weigh := w } := fun t => by
    unfold countSettle; split <;> exact ⟨_, rfl⟩
  have empty : ∀ t : State, ∃ a w st, emptyConversion f t = { t with attention := a, weigh := w, store := st } := fun t => by
    obtain ⟨w, h⟩ := settle t
    obtain ⟨a', w', st', h'⟩ := takeIntoCapture_frame f { t with weigh := w }
    obtain ⟨a'', w'', h''⟩ := zeroTrack_frame f { t with weigh := w }
    unfold emptyConversion; simp only [h]; split
    · split
      · split
        · exact ⟨_, _, _, h'⟩
        · exact ⟨_, _, _, rfl⟩
      · exact ⟨_, _, _, h'⟩
    · split
      · exact ⟨_, _, t.store, h''⟩
      · exact ⟨_, _, _, rfl⟩
  unfold validConversion; simp only []; split
  · exact ⟨_, _, _, rfl⟩
  · obtain ⟨a, w, st, h⟩ := empty (s.setWeigh { s.weigh with latest := some f, cellRun := 0, cellFault := false })
    exact ⟨a, w, st, h⟩
  · exact ⟨_, _, _, rfl⟩
  · unfold waitClearConversion; split
    · obtain ⟨a, w, st, h⟩ :=
        takeIntoCapture_frame f (s.setWeigh { s.weigh with latest := some f, cellRun := 0, cellFault := false })
      exact ⟨a, w, st, h⟩
    · exact ⟨_, _, _, rfl⟩

theorem invalidConversion_frame (m : InvalidMark) (s : State) :
    ∃ a w k, invalidConversion m s = { s with attention := a, weigh := w, control := k } := by
  unfold invalidConversion; split
  · obtain ⟨a, k, h⟩ := haltReason_frame .cellFault m.code
      (s.setWeigh { s.weigh with cellRun := 8, cellFault := true, platform := s.weigh.platform.marked })
    exact ⟨a, _, k, h⟩
  · exact ⟨_, _, _, rfl⟩

/-! ## The dose unit -/

theorem centeringCount_frame (r : Recipe) (s : State) : ∃ d, centeringCount r s = { s with dose := d } := by
  unfold centeringCount; split <;> exact ⟨_, rfl⟩

theorem controlUpdate_frame (r : Recipe) (v : Nat) (net : Int) (s : State) :
    ∃ a d, controlUpdate r v net s = { s with attention := a, dose := d } := by
  unfold controlUpdate; simp only []
  split <;> split <;> (obtain ⟨d, h⟩ := centeringCount_frame r _; exact ⟨_, d, h⟩)

theorem controlReading_frame (v : Nat) (g : Generation) (fs : FillStatus) (net : Int) (s : State) :
    ∃ a d, controlReading v g fs net s = { s with attention := a, dose := d } := by
  unfold controlReading; split
  · exact ⟨_, _, rfl⟩
  · split
    · exact controlUpdate_frame _ v net s
    · exact ⟨_, _, rfl⟩

theorem serveDose_frame (l : Link) (v : Nat) (s : State) : ∃ d, serveDose l v s = { s with dose := d } := by
  unfold serveDose; split <;> exact ⟨_, rfl⟩

theorem serveDoses_frame (l : Link) (v n : Nat) (s : State) : ∃ d, serveDoses l v n s = { s with dose := d } := by
  induction n with
  | zero => exact ⟨_, rfl⟩
  | succ n ih =>
    obtain ⟨d, h⟩ := ih
    obtain ⟨d', h'⟩ := serveDose_frame l (v + n) { s with dose := d }
    exact ⟨d', by rw [serveDoses, h, h']⟩

theorem faultBlock_frame (v : Nat) (s : State) : ∃ d, faultBlock v s = { s with dose := d } := by
  unfold faultBlock; split <;> exact ⟨_, rfl⟩

/-! ## The post of a reading -/

theorem handToDose_frame (rd : Reading) (c : CanRecord) (s : State) :
    ∃ a d, handToDose rd c s = { s with attention := a, dose := d } := by
  unfold handToDose; split
  · exact controlReading_frame _ _ _ _ s
  · exact ⟨_, _, rfl⟩

theorem post_frame (w : Weighing) (res : WeighResult) (s : State) :
    ∃ t a d, post w res s = { s with tracking := t, attention := a, dose := d } := by
  unfold post; split
  · exact ⟨_, _, _, rfl⟩
  · unfold postTo; split
    · exact ⟨_, _, _, rfl⟩
    · obtain ⟨a, d, h⟩ := handToDose_frame _ _ _
      exact ⟨_, a, d, h⟩

theorem endWithCause_frame (cause : NoReadingCause) (s : State) :
    ∃ t a d w, endWithCause cause s = { s with tracking := t, attention := a, dose := d, weigh := w } := by
  unfold endWithCause; split
  · obtain ⟨t, a, d, h⟩ := post_frame _ (.nothing cause) (s.setWeigh { s.weigh with platform := .waitClear })
    exact ⟨t, a, d, _, h⟩
  · exact ⟨_, _, _, _, rfl⟩

/-! ## The tracking unit -/

theorem slipAdd_frame (L : Layout) (s : State) :
    ∃ t a k, slipAdd L s = { s with tracking := t, attention := a, control := k } := by
  unfold slipAdd; simp only []; split
  · obtain ⟨a, k, h⟩ := haltReason_frame .trackSlip (satInc 255 s.tracking.slip : Nat)
      (s.setTracking { s.tracking with slip := satInc 255 s.tracking.slip })
    exact ⟨_, a, k, h⟩
  · exact ⟨_, _, _, rfl⟩

theorem iterate_slipAdd_frame (L : Layout) (n : Nat) (s : State) :
    ∃ t a k, iterate (slipAdd L) n s = { s with tracking := t, attention := a, control := k } := by
  induction n generalizing s with
  | zero => exact ⟨_, _, _, rfl⟩
  | succ n ih =>
    obtain ⟨t, a, k, h⟩ := slipAdd_frame L s
    obtain ⟨t', a', k', h'⟩ := ih (slipAdd L s)
    exact ⟨t', a', k', by rw [iterate, h', h]⟩

theorem platformPass_frame (L : Layout) (s : State) :
    ∃ t a k, platformPass L s = { s with tracking := t, attention := a, control := k } := by
  unfold platformPass; simp only []; split
  · obtain ⟨t, a, k, h⟩ := iterate_slipAdd_frame L
      (countMissed (pastPlatform L s.tracking.position) s.tracking.queue)
      (s.setQueue (markMissed (pastPlatform L s.tracking.position) s.tracking.queue))
    exact ⟨t, a, k, h⟩
  · exact ⟨_, _, _, rfl⟩

theorem makeOrphan_frame (L : Layout) (s : State) :
    ∃ t a k st, (makeOrphan L s).2 = { s with tracking := t, attention := a, control := k, store := st } := by
  unfold makeOrphan; split
  · obtain ⟨a, k, h⟩ := haltReason_frame .trackOverflow 0 s
    exact ⟨_, a, k, _, h⟩
  · simp only []
    obtain ⟨t, a, k, h⟩ := slipAdd_frame L (joinQueue (beforeFilled s.tracking.queue ++
      orphanRecord s (heldBack (beforeFilled s.tracking.queue).getLast? (orphanEstimate L s.tracking.position)) ::
        fromFilled s.tracking.queue) s)
    exact ⟨t, a, k, _, h⟩

theorem arrive_frame (L : Layout) (s : State) :
    ∃ t a k st, (arrive L s).2 = { s with tracking := t, attention := a, control := k, store := st } := by
  obtain ⟨t, a, k, h⟩ := platformPass_frame L s
  unfold arrive; simp only []; split
  · split
    · rw [h]; exact ⟨_, _, _, _, rfl⟩
    · rw [h]; exact makeOrphan_frame L _
  · rw [h]; exact makeOrphan_frame L _

/-! ## The gate -/

theorem unconfirmedClose_frame (n : Serial) (s : State) :
    ∃ g l a k, unconfirmedClose n s = { s with gate := g, canList := l, attention := a, control := k } := by
  unfold unconfirmedClose; simp only []; split
  · obtain ⟨a, k, h⟩ := haltReason_frame .rejectFault n.toNat
      (closePending n true { s with gate := { s.gate with unconfirmed := satInc 255 s.gate.unconfirmed } })
    exact ⟨_, _, a, k, h⟩
  · exact ⟨_, _, _, _, rfl⟩

theorem makeWindowRoom_frame (s : State) :
    ∃ g l a k, makeWindowRoom s = { s with gate := g, canList := l, attention := a, control := k } := by
  unfold makeWindowRoom; split
  · exact ⟨_, _, _, _, rfl⟩
  · split
    · obtain ⟨g, l, a, k, h⟩ := unconfirmedClose_frame _ _
      exact ⟨g, l, a, k, h⟩
    · exact ⟨_, _, _, _, rfl⟩

theorem driveFor_frame (L : Layout) (n : Serial) (b : Bool) (s : State) :
    ∃ g l a k, driveFor L n b s = { s with gate := g, canList := l, attention := a, control := k } := by
  unfold driveFor; split
  · obtain ⟨g, l, a, k, h⟩ := makeWindowRoom_frame (startDrive L s)
    unfold openWindow; simp only [h]; split <;> exact ⟨_, _, _, _, rfl⟩
  · exact ⟨_, _, _, _, rfl⟩

theorem countHandOver_frame (c : CanRecord) (b : Bool) (s : State) : ∃ d, countHandOver c b s = { s with dose := d } := by
  unfold countHandOver; split
  · exact ⟨_, rfl⟩
  · split <;> exact ⟨_, rfl⟩

theorem handOver_frame (L : Layout) (c : CanRecord) (s : State) :
    ∃ g l a k d st, handOver L c s =
      { s with gate := g, canList := l, attention := a, control := k, dose := d, store := st } := by
  unfold handOver; simp only []
  obtain ⟨g, l, a, k, h⟩ := driveFor_frame L c.serial
    (verdictOf (c.withReasons (gateReasons s.control.state c.stage)).reasons).drives s
  rw [h]
  obtain ⟨a', l', h'⟩ := appendSummary_frame
    (summaryOf (c.withReasons (gateReasons s.control.state c.stage))
      (verdictOf (c.withReasons (gateReasons s.control.state c.stage)).reasons)
      ((verdictOf (c.withReasons (gateReasons s.control.state c.stage)).reasons).drives && !g.confirmLevel))
    { s with gate := g, canList := l, attention := a, control := k }
  rw [h']
  obtain ⟨d, h''⟩ := countHandOver_frame (c.withReasons (gateReasons s.control.state c.stage))
    (verdictOf (c.withReasons (gateReasons s.control.state c.stage)).reasons).drives
    { s with gate := g, canList := l', attention := a', control := k }
  rw [h'']
  obtain ⟨a'', st, h'''⟩ := departed_frame c.generation
    { s with gate := g, canList := l', attention := a', control := k, dose := d }
  exact ⟨g, l', a'', k, d, st, h'''⟩

theorem gatePass_frame (L : Layout) (n : Nat) (s : State) :
    ∃ t g l a k d st, gatePass L n s =
      { s with tracking := t, gate := g, canList := l, attention := a, control := k, dose := d, store := st } := by
  induction n generalizing s with
  | zero => exact ⟨_, _, _, _, _, _, _, rfl⟩
  | succ n ih =>
    unfold gatePass; split
    · exact ⟨_, _, _, _, _, _, _, rfl⟩
    · split
      · obtain ⟨g, l, a, k, d, st, h⟩ := handOver_frame L _ _
        obtain ⟨t', g', l', a', k', d', st', h'⟩ := ih (handOver L _ _)
        exact ⟨t', g', l', a', k', d', st', by rw [h', h]⟩
      · exact ⟨_, _, _, _, _, _, _, rfl⟩

theorem examineStations_frame (L : Layout) (s : State) :
    ∃ n t w g l a k d st, examineStations L s =
      { s with choices := n, tracking := t, weigh := w, gate := g, canList := l, attention := a, control := k, dose := d,
               store := st } := by
  have pp := fun u => platformPass_frame L u
  have gp := fun u => gatePass_frame L (State.tracking u).queue.length u
  have bp := fun u => endWithCause_frame .bridged u
  have rp : ∀ u : State, ∃ t, readPass L u = { u with tracking := t } := fun u => ⟨_, rfl⟩
  unfold examineStations wholeGatePass; simp only []
  split
  · split
    · obtain ⟨t1, a1, d1, w1, h1⟩ := bp s.chosen
      obtain ⟨t2, a2, k2, h2⟩ := pp (endWithCause .bridged s.chosen)
      obtain ⟨t3, h3⟩ := rp (platformPass L (endWithCause .bridged s.chosen))
      obtain ⟨t4, g4, l4, a4, k4, d4, st4, h4⟩ := gp (readPass L (platformPass L (endWithCause .bridged s.chosen)))
      exact ⟨_, t4, w1, g4, l4, a4, k4, d4, st4, by rw [h4, h3, h2, h1]; rfl⟩
    · obtain ⟨t1, a1, k1, h1⟩ := pp s.chosen
      obtain ⟨t2, a2, d2, w2, h2⟩ := bp (platformPass L s.chosen)
      obtain ⟨t3, h3⟩ := rp (endWithCause .bridged (platformPass L s.chosen))
      obtain ⟨t4, g4, l4, a4, k4, d4, st4, h4⟩ := gp (readPass L (endWithCause .bridged (platformPass L s.chosen)))
      exact ⟨_, t4, w2, g4, l4, a4, k4, d4, st4, by rw [h4, h3, h2, h1]; rfl⟩
    · obtain ⟨t1, a1, k1, h1⟩ := pp s.chosen
      obtain ⟨t2, h2⟩ := rp (platformPass L s.chosen)
      obtain ⟨t3, a3, d3, w3, h3⟩ := bp (readPass L (platformPass L s.chosen))
      obtain ⟨t4, g4, l4, a4, k4, d4, st4, h4⟩ := gp (endWithCause .bridged (readPass L (platformPass L s.chosen)))
      exact ⟨_, t4, w3, g4, l4, a4, k4, d4, st4, by rw [h4, h3, h2, h1]; rfl⟩
    · obtain ⟨t1, a1, k1, h1⟩ := pp s.chosen
      obtain ⟨t2, h2⟩ := rp (platformPass L s.chosen)
      obtain ⟨t3, g3, l3, a3, k3, d3, st3, h3⟩ := gp (readPass L (platformPass L s.chosen))
      obtain ⟨t4, a4, d4, w4, h4⟩ :=
        bp (gatePass L (readPass L (platformPass L s.chosen)).tracking.queue.length (readPass L (platformPass L s.chosen)))
      exact ⟨_, t4, w4, g3, l3, a4, k3, d4, st3, by rw [h4, h3, h2, h1]; rfl⟩
  · obtain ⟨t1, a1, k1, h1⟩ := pp s
    obtain ⟨t2, h2⟩ := rp (platformPass L s)
    obtain ⟨t3, g3, l3, a3, k3, d3, st3, h3⟩ := gp (readPass L (platformPass L s))
    exact ⟨_, t3, _, g3, l3, a3, k3, d3, st3, by rw [h3, h2, h1]⟩

theorem positionStep_frame (s : State) :
    ∃ n t w g l a k d st, positionStep s =
      { s with choices := n, tracking := t, weigh := w, gate := g, canList := l, attention := a, control := k, dose := d,
               store := st } := by
  unfold positionStep; simp only []; split
  · exact ⟨_, _, _, _, _, _, _, _, _, rfl⟩
  · obtain ⟨n, t, w, g, l, a, k, d, st, h⟩ :=
      examineStations_frame _ (s.setTracking { s.tracking with position := s.tracking.position + 1 })
    exact ⟨n, t, w, g, l, a, k, d, st, h⟩

/-! ## The links -/

theorem countError_frame (l : Link) (n : CountName) (s : State) :
    ∃ m a, countError l n s = { s.setLink l m with attention := a } := by
  unfold countError; simp only []; split <;> exact ⟨_, _, rfl⟩

/-- An answer changes the link it goes out on, and nothing else. -/
theorem answer_frame (l : Link) (kind : Byte) (r : Reply) (s : State) : ∃ m, answer l kind r s = s.setLink l m := ⟨_, rfl⟩

end Sys2Proof.Machine
end

