-- ==== Sys2Proof/Laws/Ops.lean ====
section
/-! SUPPORT. What each shared operation does: one lemma for each, to be cited in place of unfolding it. -/

namespace Sys2Proof.Machine

/-! ## Causes (R207, R209) -/

/-- A raised cause stands in the pending set with its detail. -/
theorem mem_putCause (c : Cause) (d : Int) (q : List PendingCause) : { cause := c, detail := d } ∈ putCause c d q := by
  induction q with
  | nil => simp [putCause]
  | cons p rest ih =>
    unfold putCause
    split
    · simp
    · split
      · simp
      · simp [ih]

/-- The causes of a set after a raise are those before it and the one raised. -/
theorem causes_putCause (c x : Cause) (d : Int) (q : List PendingCause) :
    (∃ p ∈ putCause c d q, p.cause = x) ↔ x = c ∨ ∃ p ∈ q, p.cause = x := by
  induction q with
  | nil => simp [putCause, eq_comm]
  | cons p rest ih =>
    unfold putCause
    split
    · rename_i h; subst h; simp [eq_comm]
    · split
      · simp [eq_comm]
      · simp only [List.mem_cons, exists_eq_or_imp, ih]
        constructor
        · rintro (h | h | h)
          · exact .inr (.inl h)
          · exact .inl h
          · exact .inr (.inr h)
        · rintro (h | h | h)
          · exact .inr (.inl h)
          · exact .inl h
          · exact .inr (.inr h)

/-- A cause other than the one raised keeps its place and its detail. -/
theorem mem_putCause_of_ne {c : Cause} {d : Int} {p : PendingCause} {q : List PendingCause} (h : p ∈ q)
    (hne : p.cause ≠ c) : p ∈ putCause c d q := by
  induction q with
  | nil => cases h
  | cons x rest ih =>
    unfold putCause
    split
    · rename_i hx
      cases h with
      | head => exact absurd hx hne
      | tail _ h => exact .tail _ h
    · split
      · exact .tail _ h
      · cases h with
        | head => exact .head _
        | tail _ h => exact .tail _ (ih h)

/-- A raise on an ordered set: the raised cause stands once, with the new detail, every other cause as before, and the set is still
ordered (R207, R208). -/
theorem putCause_of_ordered (c : Cause) (d : Int) (l : List PendingCause)
    (h : l.Pairwise (fun p q => p.cause.code < q.cause.code)) :
    (putCause c d l).Pairwise (fun p q => p.cause.code < q.cause.code) ∧
      ∀ q, q ∈ putCause c d l ↔ q = { cause := c, detail := d } ∨ (q ∈ l ∧ q.cause ≠ c) := by
  induction l with
  | nil => simp [putCause]
  | cons p rest ih =>
    obtain ⟨hp, hr⟩ := List.pairwise_cons.mp h
    unfold putCause
    split
    · rename_i e
      subst e
      refine ⟨List.pairwise_cons.mpr ⟨hp, hr⟩, fun q => ?_⟩
      have : ∀ q ∈ rest, q.cause ≠ p.cause := fun q hq e => by have := hp q hq; rw [e] at this; omega
      simp only [List.mem_cons]
      constructor
      · rintro (h | h)
        · exact .inl h
        · exact .inr ⟨.inr h, this q h⟩
      · rintro (h | ⟨h | h, hn⟩)
        · exact .inl h
        · exact absurd (by rw [h]) hn
        · exact .inr h
    · rename_i e
      split
      · rename_i lt
        refine ⟨List.pairwise_cons.mpr ⟨fun q hq => ?_, h⟩, fun q => ?_⟩
        · rcases List.mem_cons.mp hq with rfl | hq
          · exact lt
          · exact Nat.lt_trans lt (hp q hq)
        · have : ∀ q ∈ p :: rest, q.cause ≠ c := by
            intro q hq e'
            rcases List.mem_cons.mp hq with rfl | hq
            · exact e e'
            · have := hp q hq; rw [e'] at this; omega
          simp only [List.mem_cons (a := q) (b := ({ cause := c, detail := d } : PendingCause))]
          exact ⟨fun h => h.imp id (fun h => ⟨h, this q h⟩), fun h => h.imp id And.left⟩
      · rename_i lt
        obtain ⟨i1, i2⟩ := ih hr
        have hlt : p.cause.code < c.code := by
          rcases Nat.lt_or_ge p.cause.code c.code with h | h
          · exact h
          · have : p.cause.code = c.code := by omega
            exact absurd (by revert this; cases p.cause <;> cases c <;> decide) e
        refine ⟨List.pairwise_cons.mpr ⟨fun q hq => ?_, i1⟩, fun q => ?_⟩
        · rcases (i2 q).mp hq with rfl | ⟨hq, _⟩
          · exact hlt
          · exact hp q hq
        · simp only [List.mem_cons, i2]
          constructor
          · rintro (rfl | h | ⟨h, hn⟩)
            · exact .inr ⟨.inl rfl, e⟩
            · exact .inl h
            · exact .inr ⟨.inr h, hn⟩
          · rintro (h | ⟨rfl | h, hn⟩)
            · exact .inr (.inl h)
            · exact .inl rfl
            · exact .inr (.inr ⟨h, hn⟩)

/-- The hold of a line after a raise: 500 ms from now for an enabled cause, as before for another. -/
theorem raised_hold (a : Attention) (now : Moment) (c : Cause) (d : Int) :
    (a.raised now c d).hold = if c ∈ a.enabled then some (now + attentionHold) else a.hold := rfl

/-- A raise on all three links, seen on one of them. -/
theorem raiseAll_att (c : Cause) (d : Int) (s : State) (l : Link) :
    (raiseAll c d s).att l = (s.att l).raised s.now c d := by
  cases l <;> rfl

/-- A raise on one link, seen on that link. -/
theorem raiseOn_att_same (l : Link) (c : Cause) (d : Int) (s : State) :
    (raiseOn l c d s).att l = (s.att l).raised s.now c d := by
  simp [raiseOn]

/-- A raise on one link leaves the other links' attention states. -/
theorem raiseOn_att_other {l k : Link} (c : Cause) (d : Int) (s : State) (h : k ≠ l) :
    (raiseOn l c d s).att k = s.att k := setAtt_att_other s _ h

/-- What a HALT reason does (R172): outside RUN it is raised and nothing more; in RUN the part enters HALT with the line stop
asserted, and HALT_ENTERED is raised with the reason as detail. -/
theorem haltReason_cases (c : Cause) (d : Int) (s : State) :
    (s.control.state ≠ .run ∧ haltReason c d s = raiseAll c d s) ∨
      (s.control.state = .run ∧ haltReason c d s =
        raiseAll .haltEntered c.code
          { raiseAll c d s with control := { s.control with state := .halt, lineStop := true } }) := by
  by_cases h : s.control.state = .run
  · exact .inr ⟨h, by unfold haltReason enterHalt; rw [if_pos (show (raiseAll c d s).control.state = .run from h)]; rfl⟩
  · exact .inl ⟨h, by unfold haltReason enterHalt; rw [if_neg (show ¬(raiseAll c d s).control.state = .run from h)]⟩

/-- A HALT reason is pending on all links after it, and the state controller has acted on it (R172). -/
theorem haltReason_effects {c : Cause} (hc : c ≠ .haltEntered) (d : Int) (s : State) :
    (haltReason c d s).pendingOnAll c d ∧ (haltReason c d s).haltedBy s c := by
  rcases haltReason_cases c d s with ⟨hr, he⟩ | ⟨hr, he⟩
  · rw [he]
    refine ⟨?_, fun h => absurd h hr, fun _ => rfl⟩
    intro l; cases l <;> exact mem_putCause _ _ _
  · rw [he]
    refine ⟨?_, fun _ => ⟨rfl, ?_⟩, fun h => absurd hr h⟩
    · intro l; cases l <;> exact mem_putCause_of_ne (mem_putCause _ _ _) hc
    · intro l; cases l <;> exact mem_putCause _ _ _

/-! ## Requests and their answers (R190, R195, R196) -/

/-- What `serve` does: nothing where the request is not taken; else LINK, LENGTH or the owner's answer. -/
theorem serve_cases (k : Kind) (l : Link) (p : List Byte) (st : Option Position) (own : State → Served) (s : State) :
    ((s.resetHeld = true ∨ (s.link l).admits k.code p st = false) ∧ serve k l p st own s = s) ∨
      (s.resetHeld = false ∧ (s.link l).admits k.code p st = true ∧
        ((permitted k l = false ∧ serve k l p st own s = answer l k.code { status := .link, payload := [] } s) ∨
          (permitted k l = true ∧ lengthOk k p = false ∧
            serve k l p st own s = answer l k.code { status := .length, payload := [] } s) ∨
          (permitted k l = true ∧ lengthOk k p = true ∧
            serve k l p st own s = answer l k.code (own s).1 (own s).2))) := by
  unfold serve
  cases h1 : s.resetHeld <;> cases h2 : (s.link l).admits k.code p st <;> cases h3 : permitted k l <;>
    cases h4 : lengthOk k p <;> simp

/-- A request that its link takes, that the link may send and whose payload has its length, is answered by its owner. -/
theorem serve_own {k : Kind} {l : Link} {p : List Byte} {st : Option Position} (own : State → Served) {s : State}
    (h : s.resetHeld = false) (ha : (s.link l).admits k.code p st = true) (hp : permitted k l = true)
    (hl : lengthOk k p = true) : serve k l p st own s = answer l k.code (own s).1 (own s).2 := by
  simp [serve, h, ha, hp, hl]

/-- The link after its answer: the answer is placed whole where there is room for it, and held where there is none. -/
theorem answered_cases (m : MasterLink) (a : List Byte) :
    (m.port.tx.fifo.length + a.length ≤ 128 ∧
        m.answered a = { m with request := none,
                                port := { m.port with tx := { m.port.tx with fifo := m.port.tx.fifo ++ a } } }) ∨
      (128 < m.port.tx.fifo.length + a.length ∧ m.answered a = { m with request := none, held := some a }) := by
  by_cases h : m.port.tx.fifo.length + a.length ≤ 128
  · exact .inl ⟨h, by simp [MasterLink.answered, Transmitter.roomFor, fifoSize, h, MasterLink.place]⟩
  · exact .inr ⟨by omega, by simp [MasterLink.answered, Transmitter.roomFor, fifoSize, h]⟩

/-- An answer leaves the other links. -/
theorem answer_link_other {l k : Link} (kind : Byte) (r : Reply) (s : State) (h : k ≠ l) :
    (answer l kind r s).link k = s.link k := setLink_link_other s _ h

/-- While the reset pin is released an event acts. -/
theorem unlessReset_of_released {f : State → State} {s : State} (h : s.resetHeld = false) : unlessReset f s = f s := by
  simp [unlessReset, h]

/-- While the reset pin is held an event changes nothing. -/
theorem unlessReset_of_held {f : State → State} {s : State} (h : s.resetHeld = true) : unlessReset f s = s := by
  simp [unlessReset, h]

/-! ## Lists -/

theorem length_markMissed (late : CanRecord → Bool) (q : List CanRecord) : (markMissed late q).length = q.length := by
  induction q with
  | nil => rfl
  | cons c rest ih => unfold markMissed; split <;> (try split) <;> simp [ih]

theorem length_markUnread (st : Store) (late : CanRecord → Bool) (q : List CanRecord) :
    (markUnread st late q).length = q.length := by
  induction q with
  | nil => rfl
  | cons c rest ih => unfold markUnread; split <;> (try split) <;> simp [ih]

/-- What the platform pass marks: the FILLED records of the longest front of the queue in which every FILLED record is late. -/
theorem markMissed_takeWhile (late : CanRecord → Bool) (q : List CanRecord) :
    let past := fun c : CanRecord => decide (c.stage ≠ .filled ∨ late c = true)
    markMissed late q =
        (q.takeWhile past).map (fun c => if c.stage = .filled then c.markedMissed else c) ++ q.dropWhile past ∧
      countMissed late q = (q.takeWhile past).countP (fun c => c.stage == .filled) := by
  induction q with
  | nil => exact ⟨rfl, rfl⟩
  | cons c rest ih =>
    by_cases h : c.stage = .filled
    · by_cases h2 : late c
      · simp [markMissed, countMissed, h, h2, ih.1, ih.2]
      · simp [markMissed, countMissed, h, h2]
    · simp [markMissed, countMissed, h, ih.1, ih.2]

/-- A second pass at the same position marks nothing. -/
theorem markMissed_idem (late : CanRecord → Bool) (q : List CanRecord) :
    markMissed late (markMissed late q) = markMissed late q ∧ countMissed late (markMissed late q) = 0 := by
  induction q with
  | nil => exact ⟨rfl, rfl⟩
  | cons c rest ih =>
    by_cases h : c.stage = .filled
    · by_cases h2 : late c
      · have : c.markedMissed.stage = .missed := rfl
        simp [markMissed, countMissed, h, h2, this, ih]
      · simp [markMissed, countMissed, h, h2]
    · simp [markMissed, countMissed, h, ih]

/-- What the read pass sets to READ: the WEIGHED records of the longest front in which every WEIGHED record is overdue. -/
theorem markUnread_takeWhile (st : Store) (late : CanRecord → Bool) (q : List CanRecord) :
    let past := fun c : CanRecord => decide (c.stage ≠ .weighed ∨ late c = true)
    markUnread st late q =
      (q.takeWhile past).map (fun c => if c.stage = .weighed then c.readAs st none .noRead else c) ++ q.dropWhile past := by
  induction q with
  | nil => rfl
  | cons c rest ih =>
    by_cases h : c.stage = .weighed
    · by_cases h2 : late c
      · simp [markUnread, h, h2, ih]
      · simp [markUnread, h, h2]
    · simp [markUnread, h, ih]

/-- A second pass at the same stamp sets nothing. -/
theorem markUnread_idem (st : Store) (late : CanRecord → Bool) (q : List CanRecord) :
    markUnread st late (markUnread st late q) = markUnread st late q := by
  induction q with
  | nil => rfl
  | cons c rest ih =>
    by_cases h : c.stage = .weighed
    · by_cases h2 : late c
      · have : (c.readAs st none .noRead).stage = .read := rfl
        simp [markUnread, h, h2, this, ih]
      · simp [markUnread, h, h2]
    · simp [markUnread, h, ih]

/-- A record set to READ with NOREAD (R19, R74, R83). -/
theorem readAs_noRead (st : Store) (c : CanRecord) : c.readAs st none .noRead =
    { c with
      code := none, codeStatus := .noRead, stage := .read
      reasons := if ((st.recipeOf c.generation).map Recipe.codeRequired).getD false = true
        then addReason .codeNoRead c.reasons else c.reasons } := by
  unfold CanRecord.readAs codeReasons CanRecord.withReasons; simp only []; split <;> rfl

/-- The record a weighing is bound to is found and changed where it stands. -/
theorem find_bound {n : Serial} {c : CanRecord} {ahead rest q : List CanRecord} (hq : q = ahead ++ c :: rest)
    (ha : ∀ a ∈ ahead, ¬(a.serial = n ∧ a.stage = .onPlatform)) (hc : c.serial = n ∧ c.stage = .onPlatform)
    (f : CanRecord → CanRecord) :
    q.find? (isBound n) = some c ∧ mapFirst (isBound n) f q = ahead ++ f c :: rest := by
  subst hq
  induction ahead with
  | nil => simp [isBound, hc.1, hc.2, mapFirst]
  | cons x xs ih =>
    have hx : isBound n x = false := by have := ha x (by simp); simp [isBound]; tauto
    have := ih (fun a h => ha a (by simp [h]))
    simp [hx, mapFirst, this.1, this.2]

/-- No record is found where none of the serial is ON_PLATFORM. -/
theorem find_unbound {n : Serial} {q : List CanRecord} (h : ∀ c ∈ q, ¬(c.serial = n ∧ c.stage = .onPlatform)) :
    q.find? (isBound n) = none := by
  simp [isBound]; intro c hc; have := h c hc; tauto

theorem length_mapFirst {α : Type} (p : α → Bool) (f : α → α) (q : List α) : (mapFirst p f q).length = q.length := by
  induction q with
  | nil => rfl
  | cons c rest ih => unfold mapFirst; split <;> simp [ih]

/-- The ring after an append holds at most 256 summaries where it did before (R94). -/
theorem length_append_ring (c : CanList) (m : CanSummary) (h : c.ring.length ≤ 256) : (c.append m).ring.length ≤ 256 := by
  unfold CanList.append ringSize
  split
  · simp only [List.length_append, List.length_cons, List.length_nil]; omega
  · split <;> simp <;> omega

/-- The ring after an append: the summary joins as the newest, and of more than 256 the oldest is lost (R94). -/
theorem append_ring (c : CanList) (m : CanSummary) (h : c.ring.length ≤ 256) :
    (c.append m).ring = (c.ring ++ [m]).drop (c.ring.length + 1 - 256) := by
  unfold CanList.append ringSize
  by_cases h1 : c.ring.length < 256
  · rw [if_pos h1, show c.ring.length + 1 - 256 = 0 by omega]; rfl
  · rw [if_neg h1, show c.ring.length + 1 - 256 = 1 by omega]
    have : (c.ring ++ [m]).drop 1 = c.ring.tail ++ [m] := by
      cases hc : c.ring with
      | nil => rw [hc] at h1; simp at h1
      | cons x xs => rfl
    rw [this]; split <;> rfl

/-! ## Reasons (R81, R82) -/

theorem mem_addReason (r q : Reason) (rs : List Reason) : q ∈ addReason r rs ↔ q = r ∨ q ∈ rs := by
  induction rs with
  | nil => simp [addReason]
  | cons x rest ih =>
    unfold addReason
    split
    · rename_i h; subst h; simp
    · split
      · simp
      · simp [ih]; tauto

/-- The reasons of a record after several have joined. -/
theorem mem_withReasons (c : CanRecord) (rs : List Reason) (q : Reason) :
    q ∈ (c.withReasons rs).reasons ↔ q ∈ c.reasons ∨ q ∈ rs := by
  have : ∀ (rs acc : List Reason), q ∈ rs.foldl (fun a r => addReason r a) acc ↔ q ∈ acc ∨ q ∈ rs := by
    intro rs; induction rs with
    | nil => simp
    | cons x rest ih => intro acc; simp [ih, mem_addReason]; tauto
  exact this _ _

/-- When PROBATION joins at a post (R82). -/
theorem mem_probationReasons (s : State) (c : CanRecord) (r : Reason) :
    r ∈ probationReasons s c ↔ (r = .probation ∧ c.origin = .filled ∧
      ∃ v left, c.valve = some v ∧ (s.valve v).state = .probation left) := by
  unfold probationReasons
  cases ho : c.origin <;> cases hv : c.valve <;> simp
  rename_i v
  cases h : (s.valve v).state <;> simp [ValveState.onProbation]

/-- The reasons a reading gives, by the recipe of its record (R82). -/
theorem mem_readingReasons (st : Store) (g : Generation) (rd : Reading) (r : Reason) :
    r ∈ readingReasons st g rd ↔ (r = .noReading ∧ ∃ x, rd = .noReading x) ∨
      (∃ gross net, rd = .valid gross net ∧ ∃ k, st.recipeOf g = some k ∧
        ((r = .underweight ∧ net < (k.targetNet : Int) - k.tolUnder) ∨
          (r = .overweight ∧ (k.targetNet : Int) + k.tolOver < net))) := by
  cases rd with
  | noReading x => simp [readingReasons]
  | valid gross net =>
    simp only [readingReasons]
    cases h : st.recipeOf g with
    | none => simp
    | some k => simp [netReasons]; tauto

/-! ## Conversions (R41) -/

/-- A conversion in progress that completes in the band is a valid one, whose effect the platform state decides (R35, R41). -/
theorem completeConversion_valid (s : State) (hc : s.weigh.conversion = .running) (f : Nat)
    (hf : f = (2 * (s.cal.periodSetting * 200000000) + s.weigh.period) / (2 * s.weigh.period)) (h1 : 200000 ≤ f)
    (h2 : f ≤ 600000) : completeConversion s = validConversion f (s.setWeigh { s.weigh with period := 0 }) := by
  unfold completeConversion; rw [hc]
  have : frequencyOf s.cal.periodSetting s.weigh.period = f := by rw [hf]; rfl
  simp only [this]; rw [if_pos (by simp [freqInBand]; exact ⟨h1, h2⟩)]

/-! ## Rounding (R2, R99) -/

/-- A clamped value lies between the bounds. -/
theorem clamp_bounds {lo hi : Int} (x : Int) (h : lo ≤ hi) : lo ≤ clamp lo hi x ∧ clamp lo hi x ≤ hi := by
  unfold clamp; split
  · omega
  · split <;> omega

/-- A value within the bounds is its own clamp. -/
theorem clamp_of_mem {lo hi x : Int} (h1 : lo ≤ x) (h2 : x ≤ hi) : clamp lo hi x = x := by
  unfold clamp; rw [if_neg (by omega), if_neg (by omega)]

/-- Of the values within two intervals that both hold 0, the one nearest to a value is its clamp into the first and then into the
second (R116, R117). -/
theorem clamp_clamp_nearest {a b a' b' m x : Int} (h : a ≤ 0) (h1 : 0 ≤ b) (h2 : a' ≤ 0) (h3 : 0 ≤ b') (hx : a ≤ x)
    (hx' : x ≤ b) (hy : a' ≤ x) (hy' : x ≤ b') :
    let c := clamp a' b' (clamp a b m)
    (m - c).natAbs ≤ (m - x).natAbs ∧ a ≤ c ∧ c ≤ b ∧ a' ≤ c ∧ c ≤ b' := by
  unfold clamp; simp only []; split <;> split <;> (try split) <;> (try split) <;> omega

/-! ## Appends, departures and flushes (R94, R96, R158, R162) -/

/-- What an append does to the can list and the attention states (R94, R96). -/
theorem appendSummary_effect (m : CanSummary) (s : State) (h1 : s.canList.ring.length ≤ 256)
    (h2 : s.canList.unread ≤ s.canList.ring.length) :
    let n := min 256 (s.canList.unread + 1)
    let reached := s.canList.armed = true ∧ s.canList.unread < n ∧ s.canList.level ≤ n
    let t := appendSummary m s
    t = { s with canList := t.canList, attention := t.attention } ∧
      t.canList.ring = (s.canList.ring ++ [m]).drop (s.canList.ring.length + 1 - 256) ∧ t.canList.unread = n ∧
      t.canList.level = s.canList.level ∧
      (reached → t.canList.armed = false ∧ t.attention = (raiseOn .quality .canListLevel n s).attention) ∧
      (¬reached → t.canList.armed = s.canList.armed ∧ t.attention = s.attention) := by
  intro n reached t
  have hr := append_ring s.canList m h1
  have hu : (s.canList.append m).unread = n := by
    unfold CanList.append ringSize; split
    · simp only [n]; omega
    · split <;> simp only [n] <;> omega
  have hl : (s.canList.append m).level = s.canList.level ∧ (s.canList.append m).armed = s.canList.armed := by
    unfold CanList.append; split
    · exact ⟨rfl, rfl⟩
    · split <;> exact ⟨rfl, rfl⟩
  have hre : s.canList.reaches (s.canList.append m) = true ↔ reached := by
    simp only [CanList.reaches, hu, hl.1, hl.2, reached, Bool.and_eq_true, decide_eq_true_eq]; tauto
  by_cases h : reached
  · have e : t = raiseOn .quality .canListLevel (s.canList.append m).unread
        { s with canList := { (s.canList.append m) with armed := false } } := by
      show appendSummary m s = _; unfold appendSummary; simp only []; rw [if_pos (hre.mpr h)]
    rw [e, hu]
    exact ⟨rfl, hr, hu, hl.1, fun _ => ⟨rfl, rfl⟩, fun hn => absurd h hn⟩
  · have e : t = { s with canList := s.canList.append m } := by
      show appendSummary m s = _; unfold appendSummary; simp only []; rw [if_neg (fun x => h (hre.mp x))]
    rw [e]
    exact ⟨rfl, hr, hu, hl.1, fun hp => absurd hp h, fun _ => ⟨hl.2, rfl⟩⟩

/-- What a departure does: the previous recipe is retired at its last record, or counts one less; a record of another generation
counts towards the current recipe (R158, R162). -/
theorem departed_cases (g : Generation) (s : State) :
    (∃ h, s.store.previous = some h ∧ h.generation = g ∧ h.count ≤ 1 ∧ departed g s =
      raiseOn .supervisor .recipeRetired g.toNat { s with store := { s.store with previous := none } }) ∨
    (∃ h, s.store.previous = some h ∧ h.generation = g ∧ 1 < h.count ∧ departed g s =
      { s with store := { s.store with previous := some { h with count := h.count - 1 } } }) ∨
    ((∀ h, s.store.previous = some h → h.generation ≠ g) ∧ departed g s = { s with store := { s.store with
      current := s.store.current.map (fun h => if h.generation = g then { h with count := h.count - 1 } else h) } }) := by
  cases hp : s.store.previous with
  | none => exact .inr (.inr ⟨nofun, by unfold departed; rw [hp]; rfl⟩)
  | some h =>
    by_cases hg : h.generation = g
    · by_cases hc : h.count ≤ 1
      · exact .inl ⟨h, rfl, hg, hc, by unfold departed; rw [hp]; simp only [hg, hc, if_true]; rfl⟩
      · exact .inr (.inl ⟨h, rfl, hg, by omega, by unfold departed; rw [hp]; simp only [hg, hc, if_true, if_false]⟩)
    · exact .inr (.inr ⟨fun x e => by obtain rfl := Option.some.inj e; exact hg,
        by unfold departed; rw [hp]; simp only [hg, if_false]; rfl⟩)

/-- A departure leaves all attention states but the supervisor link's. -/
theorem departed_att {k : Link} (g : Generation) (s : State) (h : k ≠ .supervisor) : (departed g s).att k = s.att k := by
  rcases departed_cases g s with ⟨_, _, _, _, e⟩ | ⟨_, _, _, _, e⟩ | ⟨_, e⟩
  · rw [e, raiseOn_att_other _ _ _ h]; rfl
  · rw [e]; rfl
  · rw [e]; rfl

/-- An append leaves all attention states but the quality link's, and the settings store. -/
theorem appendSummary_att {k : Link} (m : CanSummary) (s : State) (h : k ≠ .quality) :
    (appendSummary m s).att k = s.att k ∧ (appendSummary m s).store = s.store := by
  unfold appendSummary; simp only []; split
  · exact ⟨by rw [raiseOn_att_other _ _ _ h]; rfl, rfl⟩
  · exact ⟨rfl, rfl⟩

/-- The can list and the attention states of the filler and the quality link after a flush of the records `q` (R31, R94, R96). -/
theorem flushRecords_flushedList (q : List CanRecord) (s : State) (h1 : s.canList.ring.length ≤ 256)
    (h2 : s.canList.unread ≤ s.canList.ring.length) :
    (flushRecords q s).flushedList (s.setQueue q) := by
  induction q generalizing s with
  | nil =>
    unfold State.flushedList
    simp only [setQueue_canList, setQueue_tracking]
    refine ⟨?_, ?_, rfl, fun h => ?_, fun _ => ⟨rfl, rfl⟩, rfl⟩
    · simp only [flushRecords, List.map_nil, List.append_nil]; rw [show s.canList.ring.length - 256 = 0 by omega]; rfl
    · simp only [flushRecords, List.length_nil]; omega
    · have := h.2.1; simp only [List.length_nil] at this; omega
  | cons c rest ih =>
    obtain ⟨ef, er, eu, el, ey, en⟩ := appendSummary_effect (summaryOf c .flushed false) s h1 h2
    have hc : (departed c.generation (appendSummary (summaryOf c .flushed false) s)).canList =
        (appendSummary (summaryOf c .flushed false) s).canList := by
      obtain ⟨a, st, h⟩ := departed_frame c.generation (appendSummary (summaryOf c .flushed false) s); rw [h]
    have hn : (departed c.generation (appendSummary (summaryOf c .flushed false) s)).now = s.now := by
      obtain ⟨a, st, h⟩ := departed_frame c.generation (appendSummary (summaryOf c .flushed false) s); rw [h, ef]
    have hq := departed_att (k := .quality) c.generation (appendSummary (summaryOf c .flushed false) s) (by decide)
    have hf := departed_att (k := .filler) c.generation (appendSummary (summaryOf c .flushed false) s) (by decide)
    have hf' := (appendSummary_att (k := .filler) (summaryOf c .flushed false) s (by decide)).1
    have len : (appendSummary (summaryOf c .flushed false) s).canList.ring.length = min 256 (s.canList.ring.length + 1) := by
      rw [er]; simp only [List.length_drop, List.length_append, List.length_cons, List.length_nil]; omega
    have key := ih (departed c.generation (appendSummary (summaryOf c .flushed false) s))
      (by rw [hc, len]; omega) (by rw [hc, len, eu]; omega)
    rw [flushRecords]
    generalize departed c.generation (appendSummary (summaryOf c .flushed false) s) = D at key hc hn hq hf
    generalize flushRecords rest D = T at key
    unfold State.flushedList at key ⊢
    have hD : (D.setQueue rest).att = D.att := rfl
    have hS : (s.setQueue (c :: rest)).att = s.att := rfl
    simp only [setQueue_canList, setQueue_tracking, setQueue_now, hD, hS, hc, hn, er, eu, el, hq, hf, hf'] at key ⊢
    obtain ⟨i1, i2, i3, i4, i5, i6⟩ := key
    generalize appendSummary (summaryOf c .flushed false) s = A at ey en i4 i5
    simp only [List.map_cons, List.length_cons] at i1 i2 i4 i5 ⊢
    refine ⟨?_, by rw [i2]; omega, i3, ?_, ?_, i6⟩
    · rw [i1]
      have e : s.canList.ring ++ summaryOf c .flushed false :: rest.map (fun c => summaryOf c .flushed false) =
          (s.canList.ring ++ [summaryOf c .flushed false]) ++ rest.map (fun c => summaryOf c .flushed false) := by simp
      have e2 : ∀ (a b : Nat) (l : List CanSummary), a = b → l.drop a = l.drop b := fun _ _ _ h => by rw [h]
      rw [e, ← List.drop_append_of_le_length (by simp; omega), List.drop_drop]
      apply e2
      simp only [List.length_drop, List.length_append, List.length_cons, List.length_nil, List.length_map]; omega
    · rintro ⟨ha, hu, hl⟩
      by_cases h : s.canList.armed = true ∧ s.canList.unread < min 256 (s.canList.unread + 1) ∧
          s.canList.level ≤ min 256 (s.canList.unread + 1)
      · obtain ⟨y1, y2⟩ := ey h
        obtain ⟨z1, z2⟩ := i5 (by rw [y1]; simp)
        refine ⟨by rw [z1, y1], ?_⟩
        rw [z2, State.att, y2]
        have : max s.canList.level (s.canList.unread + 1) = min 256 (s.canList.unread + 1) := by omega
        rw [this]
        show (raiseOn .quality .canListLevel (min 256 (s.canList.unread + 1) : Nat) s).att .quality = _
        rw [raiseOn_att_same]
      · obtain ⟨y1, y2⟩ := en h
        have hlev : ¬ s.canList.level ≤ min 256 (s.canList.unread + 1) := fun x => h ⟨ha, by omega, x⟩
        obtain ⟨z1, z2⟩ := i4 ⟨by rw [y1]; exact ha, by omega, by omega⟩
        refine ⟨z1, ?_⟩
        rw [z2, State.att, y2]
        have : max s.canList.level (min 256 (s.canList.unread + 1) + 1) = max s.canList.level (s.canList.unread + 1) := by
          omega
        rw [this]; rfl
    · intro hn'
      have h : ¬(s.canList.armed = true ∧ s.canList.unread < min 256 (s.canList.unread + 1) ∧
          s.canList.level ≤ min 256 (s.canList.unread + 1)) := fun ⟨a, b, c⟩ => hn' ⟨a, by omega, by omega⟩
      obtain ⟨y1, y2⟩ := en h
      obtain ⟨z1, z2⟩ := i5 (fun ⟨a, b, c⟩ => hn' ⟨by rw [← y1]; exact a, by omega, by omega⟩)
      exact ⟨by rw [z1, y1], by rw [z2, State.att, y2]; rfl⟩

/-- How many records of a list carry the generation of one that leads it. -/
theorem carrying_cons (g : Generation) (c : CanRecord) (q : List CanRecord) :
    carrying g (c :: q) = carrying g q + if c.generation = g then 1 else 0 := by
  simp [carrying, List.countP_cons]

/-- A flush of records that all carry the current generation, with the count of it, leaves the count 0 and retires nothing (R158). -/
theorem flushRecords_current (q : List CanRecord) (s : State) (hp : s.store.previous = none)
    (hq : ∀ c ∈ q, ∃ h, s.store.current = some h ∧ c.generation = h.generation)
    (hc : ∀ h, s.store.current = some h → h.count = q.length) :
    (flushRecords q s).store = { s.store with current := s.store.current.map (fun h => { h with count := 0 }) } ∧
      (flushRecords q s).att .supervisor = s.att .supervisor := by
  induction q generalizing s with
  | nil =>
    refine ⟨?_, rfl⟩
    show s.store = _
    cases hs : s.store.current with
    | none => rw [← hs]; cases hx : s.store; simp_all
    | some h =>
      have := hc h hs
      cases hx : s.store; cases h; simp_all
  | cons c rest ih =>
    obtain ⟨hb, hs⟩ := appendSummary_att (k := .supervisor) (summaryOf c .flushed false) s (by decide)
    rw [flushRecords]
    generalize appendSummary (summaryOf c .flushed false) s = A at hb hs
    obtain ⟨h, h1, h2⟩ := hq c (by simp)
    have e : departed c.generation A =
        { A with store := { s.store with current := some { h with count := rest.length } } } := by
      have := hc h h1
      unfold departed departCurrent; rw [hs, hp]; simp only [h1, Option.map_some, h2, if_true]
      rw [this]; rfl
    rw [e]
    obtain ⟨r1, r2⟩ := ih { A with store := { s.store with current := some { h with count := rest.length } } } hp
      (fun c' hc' => by
        obtain ⟨h', a, b⟩ := hq c' (by simp [hc'])
        obtain rfl : h = h' := by rw [h1] at a; exact Option.some.inj a
        exact ⟨_, rfl, b⟩)
      (fun h' e => by obtain rfl := Option.some.inj e; rfl)
    refine ⟨?_, by rw [r2]; exact hb⟩
    rw [r1, h1]; rfl

/-- A flush of a queue that agrees with the store retires the previous recipe, if one is held, and leaves the current one with the
count 0 (R31, R158, R161, R162). -/
theorem flushRecords_store (q : List CanRecord) (s : State) (h : (s.setQueue q).generationsAgree) :
    (flushRecords q s).store = { s.store with
        previous := none, current := s.store.current.map (fun h => { h with count := 0 }) } ∧
      (flushRecords q s).att .supervisor = s.attRetired := by
  obtain ⟨-, hq, hc, hp⟩ := h
  simp only [setQueue_store, setQueue_tracking] at hq hc hp
  induction q generalizing s with
  | nil =>
    have hn : s.store.previous = none := by
      cases e : s.store.previous with
      | none => rfl
      | some h => obtain ⟨a, b, _⟩ := hp h e; rw [a] at b; simp [carrying] at b
    obtain ⟨a, b⟩ := flushRecords_current [] s hn (by simp) (fun h e => by rw [(hc h e).1]; rfl)
    refine ⟨by rw [a, ← hn], by rw [b]; simp [State.attRetired, hn]⟩
  | cons c rest ih =>
    cases hpe : s.store.previous with
    | none =>
      have hall : ∀ x ∈ c :: rest, ∃ h, s.store.current = some h ∧ x.generation = h.generation := by
        intro x hx
        rcases hq x hx with h | ⟨h, a, _⟩
        · exact h
        · rw [hpe] at a; cases a
      obtain ⟨a, b⟩ := flushRecords_current (c :: rest) s hpe hall (fun h e => by
        rw [(hc h e).1, carrying, List.countP_eq_length]
        intro x hx; obtain ⟨h', e', g⟩ := hall x hx
        obtain rfl : h = h' := by rw [e] at e'; exact Option.some.inj e'
        simp [g])
      refine ⟨by rw [a, ← hpe], by rw [b]; simp [State.attRetired, hpe]⟩
    | some p =>
      obtain ⟨p1, p2, p3, p4⟩ := hp p hpe
      obtain ⟨k, hk⟩ := Option.ne_none_iff_exists'.mp p4
      obtain ⟨k1, k2⟩ := hc k hk
      have hne : k.generation ≠ p.generation := by rw [k2, p3]; generalize s.store.nextGeneration = x; revert x; decide
      have hap := appendSummary_frame (summaryOf c .flushed false) s
      obtain ⟨hb, hs⟩ := appendSummary_att (k := .supervisor) (summaryOf c .flushed false) s (by decide)
      rw [flushRecords]
      have hA : (appendSummary (summaryOf c .flushed false) s).now = s.now := by obtain ⟨a, l, e⟩ := hap; rw [e]
      generalize appendSummary (summaryOf c .flushed false) s = A at hb hs hA
      rw [carrying_cons] at p1 k1
      rcases hq c (by simp) with ⟨h, a, b⟩ | ⟨h, a, b⟩
      · -- a record of the current generation
        obtain rfl : k = h := by rw [hk] at a; exact Option.some.inj a
        rw [if_pos b] at k1
        rw [if_neg (by rw [b]; exact hne)] at p1
        have e : departed c.generation A =
            { A with store := { s.store with current := some { k with count := carrying k.generation rest } } } := by
          unfold departed departCurrent; rw [hs, hpe]; simp only [b]; rw [if_neg (fun h => hne h.symm)]
          simp only [hk, Option.map_some, if_true]; rw [k1]; simp
        rw [e]
        obtain ⟨r1, r2⟩ :=
            ih { A with store := { s.store with current := some { k with count := carrying k.generation rest } } }
          (fun c' hc' => by
            rcases hq c' (by simp [hc']) with ⟨h', a', b'⟩ | h'
            · obtain rfl : k = h' := by rw [hk] at a'; exact Option.some.inj a'
              exact .inl ⟨_, rfl, b'⟩
            · exact .inr h')
          (fun h' e => by obtain rfl := Option.some.inj e; exact ⟨rfl, k2⟩)
          (fun h' e => by
            obtain rfl : p = h' := by rw [← Option.some_inj, ← hpe]; exact e
            exact ⟨p1, p2, p3, by simp⟩)
        refine ⟨by rw [r1, hk]; rfl, ?_⟩
        rw [r2]; simp only [State.attRetired, hpe, hA]
        rw [← hb]; rfl
      · -- a record of the previous generation
        obtain rfl : p = h := by rw [hpe] at a; exact Option.some.inj a
        rw [if_pos b] at p1
        rw [if_neg (by rw [b]; exact fun h => hne h.symm)] at k1
        have hrest : ∀ x ∈ rest, (∃ h, s.store.current = some h ∧ x.generation = h.generation) ∨ x.generation = p.generation := by
          intro x hx
          rcases hq x (by simp [hx]) with h | ⟨h, a', b'⟩
          · exact .inl h
          · rw [hpe] at a'; obtain rfl := Option.some.inj a'; exact .inr b'
        by_cases hz : carrying p.generation rest = 0
        · have e : departed c.generation A = raiseOn .supervisor .recipeRetired p.generation.toNat
              { A with store := { s.store with previous := none } } := by
            unfold departed retirePrevious; rw [hs, hpe]; simp only [b, if_true]; rw [if_pos (by omega)]
          rw [e]
          have hnone : ∀ x ∈ rest, x.generation ≠ p.generation := by
            intro x hx g
            rw [carrying, List.countP_eq_zero] at hz
            exact hz x hx (by simp [g])
          have hall : ∀ x ∈ rest, ∃ h, s.store.current = some h ∧ x.generation = h.generation := fun x hx =>
            (hrest x hx).resolve_right (hnone x hx)
          obtain ⟨r1, r2⟩ := flushRecords_current rest (raiseOn .supervisor .recipeRetired p.generation.toNat
              { A with store := { s.store with previous := none } }) rfl hall (fun h e => by
            obtain rfl : k = h := by rw [← Option.some_inj, ← hk]; exact e
            rw [k1, Nat.add_zero, carrying, List.countP_eq_length]
            intro x hx; obtain ⟨h', e', g⟩ := hall x hx
            obtain rfl : k = h' := by rw [hk] at e'; exact Option.some.inj e'
            simp [g])
          refine ⟨by rw [r1]; rfl, ?_⟩
          rw [r2, raiseOn_att_same]; simp only [State.attRetired, hpe, hA]
          rw [← hb]; rfl
        · have e : departed c.generation A =
            { A with store := { s.store with previous := some { p with count := carrying p.generation rest } } } := by
            unfold departed; rw [hs, hpe]; simp only [b, if_true]; rw [if_neg (by omega), p1]; simp
          rw [e]
          obtain ⟨r1, r2⟩ :=
              ih { A with store := { s.store with previous := some { p with count := carrying p.generation rest } } }
            (fun c' hc' => (hrest c' hc').imp id (fun g => ⟨_, rfl, g⟩))
            (fun h' e => by
              obtain rfl : k = h' := by rw [← Option.some_inj, ← hk]; exact e
              exact ⟨k1, k2⟩)
            (fun h' e => by obtain rfl := Option.some.inj e; exact ⟨rfl, Nat.pos_of_ne_zero hz, p3, p4⟩)
          refine ⟨by rw [r1], ?_⟩
          rw [r2]; simp only [State.attRetired, hpe, hA]
          rw [← hb]; rfl

end Sys2Proof.Machine
end

