-- ==== Sys2Proof/Laws/PerInstr.lean ====
section
/-! SUPPORT. A family of statements made command by command: a well-formed request command is the command that its own frame is
read as, so that no field of a request frame is dropped or moved. -/

namespace Sys2Proof.Laws.FrameRoundTrip

/-- The frame of a well-formed command is read back as that command. -/
def Statement (i : Instr) : Prop :=
  i.wellFormed = true → ∀ f, i.frame? = some f → requestCommand f.link f.kind f.payload f.stamp = i

theorem fillReport (l : Link) (p : List Byte) (st : Position) : Statement (.fillReport l p st) := by
  intro hw f h; cases h
  cases l <;> simp_all [requestCommand, Kind.ofCode, Kind.all, Kind.code, Instr.wellFormed]
theorem doseQuery (l : Link) (p : List Byte) : Statement (.doseQuery l p) := fun _ f h => by cases h; rfl
theorem valveHold (l : Link) (p : List Byte) : Statement (.valveHold l p) := fun _ f h => by cases h; rfl
theorem valveFree (l : Link) (p : List Byte) : Statement (.valveFree l p) := fun _ f h => by cases h; rfl
theorem valveAccept (l : Link) (p : List Byte) : Statement (.valveAccept l p) := fun _ f h => by cases h; rfl
theorem baseSet (l : Link) (p : List Byte) : Statement (.baseSet l p) := fun _ f h => by cases h; rfl
theorem valveView (l : Link) (p : List Byte) : Statement (.valveView l p) := by
  intro hw f h; cases h
  have hk : Kind.ofCode Kind.valveView.code = some .valveView := by decide
  simp only [requestCommand, hk]
  split
  · split
    · rename_i hf; simp [Instr.wellFormed, hf] at hw
    · rfl
  · rfl
theorem valveViewClear (l : Link) (v : Byte) : Statement (.valveViewClear l v) := fun _ f h => by cases h; rfl
theorem layoutLoad (l : Link) (p : List Byte) : Statement (.layoutLoad l p) := fun _ f h => by cases h; rfl
theorem calLoad (l : Link) (p : List Byte) : Statement (.calLoad l p) := fun _ f h => by cases h; rfl
theorem recipeLoad (l : Link) (p : List Byte) : Statement (.recipeLoad l p) := fun _ f h => by cases h; rfl
theorem recordRead (l : Link) (p : List Byte) : Statement (.recordRead l p) := fun _ f h => by cases h; rfl
theorem start (l : Link) (p : List Byte) : Statement (.start l p) := fun _ f h => by cases h; rfl
theorem stop (l : Link) (p : List Byte) : Statement (.stop l p) := fun _ f h => by cases h; rfl
theorem clear (l : Link) (p : List Byte) : Statement (.clear l p) := fun _ f h => by cases h; rfl
theorem flush (l : Link) (p : List Byte) : Statement (.flush l p) := fun _ f h => by cases h; rfl
theorem restart (l : Link) (p : List Byte) : Statement (.restart l p) := fun _ f h => by cases h; rfl
theorem freeze (l : Link) (p : List Byte) : Statement (.freeze l p) := fun _ f h => by cases h; rfl
theorem thaw (l : Link) (p : List Byte) : Statement (.thaw l p) := fun _ f h => by cases h; rfl
theorem thawAll (l : Link) (p : List Byte) : Statement (.thawAll l p) := fun _ f h => by cases h; rfl
theorem zeroCapture (l : Link) (p : List Byte) : Statement (.zeroCapture l p) := fun _ f h => by cases h; rfl
theorem spanCapture (l : Link) (p : List Byte) : Statement (.spanCapture l p) := fun _ f h => by cases h; rfl
theorem captureResult (l : Link) (p : List Byte) : Statement (.captureResult l p) := fun _ f h => by cases h; rfl
theorem canListTake (l : Link) (p : List Byte) : Statement (.canListTake l p) := fun _ f h => by cases h; rfl
theorem listLevelSet (l : Link) (p : List Byte) : Statement (.listLevelSet l p) := fun _ f h => by cases h; rfl
theorem queueView (l : Link) (p : List Byte) : Statement (.queueView l p) := fun _ f h => by cases h; rfl
theorem statusRead (l : Link) (p : List Byte) : Statement (.statusRead l p) := fun _ f h => by cases h; rfl
theorem causeTake (l : Link) (p : List Byte) : Statement (.causeTake l p) := fun _ f h => by cases h; rfl
theorem causeEnable (l : Link) (p : List Byte) : Statement (.causeEnable l p) := fun _ f h => by cases h; rfl
theorem linkStats (l : Link) (p : List Byte) : Statement (.linkStats l p) := by
  intro hw f h; cases h
  have hk : Kind.ofCode Kind.linkStats.code = some .linkStats := by decide
  simp only [requestCommand, hk]
  rw [if_neg]
  intro hp; simp [Instr.wellFormed, hp] at hw
theorem linkStatsClear (l : Link) : Statement (.linkStatsClear l) := fun _ f h => by cases h; rfl
theorem unknownKind (l : Link) (kind : Byte) (p : List Byte) : Statement (.unknownKind l kind p) := by
  intro hw f h; cases h
  simp only [Instr.wellFormed, Bool.and_eq_true, Option.isNone_iff_eq_none] at hw
  simp [requestCommand, hw.2]
theorem encoderPulse : Statement (.encoderPulse) := fun _ f h => by cases h
theorem eyeBlockingEdge : Statement (.eyeBlockingEdge) := fun _ f h => by cases h
theorem eyeClearingEdge : Statement (.eyeClearingEdge) := fun _ f h => by cases h
theorem conversionComplete : Statement (.conversionComplete) := fun _ f h => by cases h
theorem conversionOverflow : Statement (.conversionOverflow) := fun _ f h => by cases h
theorem confirmInputActive : Statement (.confirmInputActive) := fun _ f h => by cases h
theorem confirmQualified : Statement (.confirmQualified) := fun _ f h => by cases h
theorem confirmInputInactive : Statement (.confirmInputInactive) := fun _ f h => by cases h
theorem confirmWindowExpiry : Statement (.confirmWindowExpiry) := fun _ f h => by cases h
theorem rejectPulseEnd : Statement (.rejectPulseEnd) := fun _ f h => by cases h
theorem lcmdFallingEdge : Statement (.lcmdFallingEdge) := fun _ f h => by cases h
theorem lcmdRisingEdge : Statement (.lcmdRisingEdge) := fun _ f h => by cases h
theorem lcmdSpellTimeout : Statement (.lcmdSpellTimeout) := fun _ f h => by cases h
theorem lineClear : Statement (.lineClear) := fun _ f h => by cases h
theorem lineFreeze : Statement (.lineFreeze) := fun _ f h => by cases h
theorem lineThaw : Statement (.lineThaw) := fun _ f h => by cases h
theorem lineFlush : Statement (.lineFlush) := fun _ f h => by cases h
theorem lineZeroCapture : Statement (.lineZeroCapture) := fun _ f h => by cases h
theorem lineCommandBadCount : Statement (.lineCommandBadCount) := fun _ f h => by cases h
theorem characterReceived (l : Link) (data : Byte) (p st : Bool) : Statement (.characterReceived l data p st) := fun _ f h => by cases h
theorem gapEntry (l : Link) : Statement (.gapEntry l) := fun _ f h => by cases h
theorem linkBreak (l : Link) : Statement (.linkBreak l) := fun _ f h => by cases h
theorem pauseExpiry (l : Link) : Statement (.pauseExpiry l) := fun _ f h => by cases h
theorem frameEntryTaken (l : Link) : Statement (.frameEntryTaken l) := fun _ f h => by cases h
theorem heldAnswerPlaced (l : Link) : Statement (.heldAnswerPlaced l) := fun _ f h => by cases h
theorem characterSent (ch : Channel) : Statement (.characterSent ch) := fun _ f h => by cases h
theorem readerCharacterReceived (data : Byte) (p st : Bool) : Statement (.readerCharacterReceived data p st) := fun _ f h => by cases h
theorem readerGapEntry : Statement (.readerGapEntry) := fun _ f h => by cases h
theorem readerBreak : Statement (.readerBreak) := fun _ f h => by cases h
theorem readerEntryTaken : Statement (.readerEntryTaken) := fun _ f h => by cases h
theorem messageMatch : Statement (.messageMatch) := fun _ f h => by cases h
theorem attentionHoldExpiry (l : Link) : Statement (.attentionHoldExpiry l) := fun _ f h => by cases h
theorem powerOn (x : Straps) : Statement (.powerOn x) := fun _ f h => by cases h
theorem resetPinAssert : Statement (.resetPinAssert) := fun _ f h => by cases h
theorem resetPinRelease (x : Straps) : Statement (.resetPinRelease x) := fun _ f h => by cases h
theorem conversionStart : Statement (.conversionStart) := fun _ f h => by cases h
theorem breakEnd (ch : Channel) : Statement (.breakEnd ch) := fun _ f h => by cases h

end Sys2Proof.Laws.FrameRoundTrip
end

