-- ==== Sys2Proof/Tests/Slice0.lean ====
section
/-! SUPPORT. Tests: ill-formed commands that are refused, the worked figures of the manual, and, for the statements with
hypotheses, states that meet them. The expected results are the manual's own figures. -/

namespace Sys2Proof.Tests

open Sys2Proof Sys2Proof.Machine

/-! ## The line of the worked figures (00_scope.md, "Worked figures"; sections 1.10, 2.3, 5.8) -/

/-- The layout record of section 1.10, with 24 valves. -/
def layout5 : Layout :=
  { valveCount := 24, divider := 1, platformDistance := 400, platformWindow := 30, readerDistance := 900,
    readerWindow := 40, rejectDistance := 1500, maxDwell := 60, slipAlarm := 3, gatePulse := 30, confirmTime := 20 }

/-- The calibration record of chapter 2. -/
def cal5 : Calibration :=
  { periodSetting := 64, span := 11362, zeroFigure := 300000, zeroRate := 4, zeroBand := 200, settleSkip := 4,
    tailDrop := 2, minCount := 4, zeroSettle := 2 }

/-- The pattern `L07-####?` of section 3.7. -/
def pattern5 : List Byte := [0x4C, 0x30, 0x37, 0x2D, 0x23, 0x23, 0x23, 0x23, 0x3F]

/-- The recipe of generation 5 (sections 3.7 and 5.8). -/
def recipe5 : Recipe :=
  { targetNet := 45400, tolUnder := 450, tolOver := 900, tareNominal := 4650, nominalDose := 44000, doseMin := 40000,
    doseMax := 48000, gain := 64, shift := 8, trimLimit := 600, deadBand := 20, limitAlarm := 3, ootAlarm := 4,
    lineLimit := 2000, centerThreshold := 10, centerEvery := 8, probationCount := 5, alertBand := 300,
    codePattern := some pattern5, codeRequired := true }

/-- Valve 17 of section 5.8. -/
def valve17 : Valve := { freshValve with baseOffset := 3, accumulator := 1024 }

/-- Valve 23 of section 6.10, SUSPECT. -/
def valve23 : Valve := { freshValve with state := .suspect, accumulator := 153600, limitRun := 3, ootRun := 2 }

/-- The valve table: 24 entries in use. -/
def table5 : List Valve :=
  (((List.replicate 24 freshValve).set 16 valve17).set 22 valve23) ++ List.replicate 40 Valve.reset

/-- The line in an operating state, at position 10,000 with serial 812 next. -/
def lineIn (op : OpState) : State :=
  { State.reset with
    tracking := { Tracking.reset with position := 10000, serial := 812 }
    weigh := { WeighUnit.reset with platform := .empty, fz := some 300000, span := some 11362, conversion := .running }
    dose := { DoseUnit.reset with valves := table5, lineOffset := -12 }
    store := { layout := some layout5, calibration := some cal5, previous := none, nextGeneration := 6,
               current := some { recipe := recipe5, generation := 5, count := 0 } }
    control := { State.reset.control with state := op, lineStop := op == .halt, decoder := .idle } }

/-- Record 812 of section 1.10. -/
def record812 : CanRecord :=
  { serial := 812, origin := .filled, valve := some 17, generation := 5, discharge := 10000, doseUsed := some 44016,
    fillStatus := .normal, stage := .filled, reading := none, code := none, codeStatus := .notYet, reasons := [],
    verdict := none }

/-- The line in RUN at a position, with record 812 at a stage in the queue. -/
def withRecord (x : Position) (stage : Stage) : State :=
  { lineIn .run with
    tracking := { Tracking.reset with position := x, serial := 813, queue := [{ record812 with stage := stage }] }
    store := { (lineIn .run).store with current := some { recipe := recipe5, generation := 5, count := 1 } } }

/-- The state a command leaves. -/
def after (i : Instr) (s : State) : State :=
  match exec i s with
  | .next t => t
  | .fault _ => s
  | .refused _ => s

/-! ## Ill-formed commands -/

theorem test_long_payload_refused : (Instr.start .supervisor (List.replicate 121 0)).wellFormed = false := by decide
theorem test_stamp_off_filler_refused : (Instr.fillReport .supervisor [1, 0, 1, 0] 7).wellFormed = false := by decide
theorem test_view_with_set_flag_refused : (Instr.valveView .supervisor [17, 1]).wellFormed = false := by decide
theorem test_stats_with_set_flag_refused : (Instr.linkStats .quality [1]).wellFormed = false := by decide
theorem test_known_kind_refused : (Instr.unknownKind .filler 0x1A []).wellFormed = false := by decide

/-! ## Codes and frames (sections 9.4, 12.2; R188, R189, R197) -/

theorem test_kind_codes : Kind.all.map Kind.code = (List.range 29).map (fun i => BitVec.ofNat 8 (i + 1)) := by decide
theorem test_requests_from_codes :
    requestCommand .filler 0x01 [17, 0xAB, 0xF0, 0] (some 10000) = .fillReport .filler [17, 0xAB, 0xF0, 0] 10000 ∧
    requestCommand .quality 0x17 [4] none = .canListTake .quality [4] ∧
    requestCommand .supervisor 0x07 [17, 1] none = .valveViewClear .supervisor 17 ∧
    requestCommand .supervisor 0x7A [] none = .unknownKind .supervisor 0x7A [] := by decide
/-- 0x1A, length 0: the check is −0x1A = 0xE6. -/
theorem test_status_read_frame : frameCharacters 0x1A [] = [0x02, 0x1A, 0x00, 0xE6] := by decide
/-- 0x85 + 0 + 0 + 0x09: an unknown kind 0x05 + 0x80 = 0x85 is answered with kind 0x05 (R197). -/
theorem test_unknown_answer : answerFrame 0x85 (.refused .unknown) = [0x02, 0x05, 0x00, 0x09, 0xF2] := by decide

/-! ## Arithmetic (R2, R5, R41, R43, R54, R59, R99) -/

theorem test_rounding : roundAway 5 2 = 3 ∧ roundAway (-5) 2 = -3 := by decide
theorem test_position_differences : posDiff 300 16777000 = 516 ∧ posDiff 16777000 250 = -466 := by decide
theorem test_conversion_in_figures :
    frequencyOf 64 38790 = 329982 ∧ loadFigure 329982 300000 = 18888120324 ∧ grossOf 329982 300000 11362 = 49967 ∧
      frequencyOf 64 64001 = 199997 := by decide
theorem test_span_in_figures :
    captureMean { Capture.reset with sum := 21118848 } = 329982 ∧ captureSpan 50000 329982 300000 = some 11369 ∧
      grossOf 329982 300000 11369 = 49998 := by decide
theorem test_trims :
    [6400, 128, -128, -384, -385].map (fun a => trimOf a 8) = [25, 1, 0, -1, -2] := by decide
theorem test_zero_steps : roundAway 37 16 = 2 ∧ roundAway (-12) 16 = -1 ∧ roundAway 8 16 = 1 := by decide

/-! ## Tracking (section 1.10) -/

theorem test_fill_report :
    (after (.fillReport .filler [17, 0xAB, 0xF0, 0] 10000) (lineIn .run)).tracking.queue = [record812] := by decide
theorem test_fill_refused_in_ready :
    (after (.fillReport .filler [17, 0xAB, 0xF0, 0] 10000) (lineIn .ready)).tracking = (lineIn .ready).tracking := by
  decide
theorem test_claim :
    (after .eyeBlockingEdge (withRecord 10398 .filled)).tracking.queue.map CanRecord.stage = [.onPlatform] := by decide
theorem test_orphan :
    (after .eyeBlockingEdge (withRecord 10356 .filled)).tracking.queue.map CanRecord.discharge = [9956, 10000] := by
  decide
theorem test_missed_at_431 :
    (after .encoderPulse (withRecord 10430 .filled)).tracking.queue.map CanRecord.stage = [.missed] ∧
      (after .encoderPulse (withRecord 10429 .filled)).tracking.queue.map CanRecord.stage = [.filled] := by decide
theorem test_unread_at_941 :
    (after .encoderPulse (withRecord 10940 .weighed)).tracking.queue.map CanRecord.codeStatus = [.noRead] := by decide
theorem test_gate_at_1500 :
    (after .encoderPulse (withRecord 11499 .read)).tracking.queue = [] ∧
      (after .encoderPulse (withRecord 11499 .read)).canList.unread = 1 := by decide

/-! ## Weighing (sections 2.4 to 2.6) -/

/-- The weighing of record 812, in the figures of section 2.4. -/
def weighing812 : Weighing :=
  { binding := some 812, arrival := 10398, settle := 0, buffer := [49967, 49971, 49960, 49965, 49958, 49702],
    mark := false }

/-- The line with record 812 on the platform and its weighing in progress. -/
def onPlatform : State :=
  { withRecord 10409 .onPlatform with
    pins := { State.reset.pins with eye := true }
    weigh := { (lineIn .run).weigh with platform := .dwell weighing812 } }

theorem test_departure_posts :
    (after .eyeClearingEdge onPlatform).tracking.queue.map CanRecord.reading = [some (.valid 49966 45316)] := by decide
theorem test_departure_steers : ((after .eyeClearingEdge onPlatform).valve 17).accumulator = 6400 := by decide
/-- The line with a conversion of 38,790 ticks about to complete. -/
def counted : State := { lineIn .ready with weigh := { (lineIn .ready).weigh with period := 38790 } }
theorem test_conversion_completes : (after .conversionComplete counted).weigh.latest = some 329982 := by decide
theorem test_eighth_invalid_halts :
    (after .conversionComplete
      { lineIn .run with weigh := { (lineIn .run).weigh with period := 64001, cellRun := 7 } }).control.state = .halt := by decide

/-! ## Lid codes (section 3.7) -/

theorem test_code_matches :
    codeMatches pattern5 [0x4C, 0x30, 0x37, 0x2D, 0x32, 0x33, 0x31, 0x38, 0x41] = true ∧
      codeMatches pattern5 [0x4C, 0x30, 0x37, 0x2D, 0x32, 0x33, 0x31, 0x39] = false := by decide
/-- The line with a completed message waiting at position 10,905. -/
def messageAt (stage : Stage) : State :=
  { withRecord 10905 stage with
    code := { CodeUnit.reset with
      message := some { text := some [0x4C, 0x30, 0x37, 0x2D, 0x32, 0x33, 0x31, 0x38, 0x41], stamp := 10905 } } }
theorem test_message_matched :
    (after .messageMatch (messageAt .weighed)).tracking.queue.map CanRecord.codeStatus = [.matched] := by decide
theorem test_message_stray : (after .messageMatch (messageAt .read)).code.stray = 1 := by decide

/-! ## Doses and valves (sections 5.8 and 6.10) -/

theorem test_dose_before : (lineIn .run).doseOf valve17 = 43995 := by decide
theorem test_update_of_valve_17 :
    ((controlUpdate recipe5 17 45316 (lineIn .run)).valve 17).accumulator = 6400 ∧
      (controlUpdate recipe5 17 45316 (lineIn .run)).doseOf { valve17 with accumulator := 6400 } = 44016 := by decide
/-- The small filler of section 5.8. -/
def smallFiller : State :=
  { lineIn .run with
    store := { (lineIn .run).store with layout := some { layout5 with valveCount := 4 } }
    dose := { DoseUnit.reset with
      valves := [{ freshValve with accumulator := 153600 }, { freshValve with accumulator := 25600 },
        { freshValve with accumulator := 51200 }, { freshValve with state := .blocked .quality, accumulator := -140800 }] ++
        List.replicate 60 Valve.reset } }
theorem test_centering_held_back :
    ((centeringStep recipe5 smallFiller).dose.valves.take 4).map Valve.accumulator = [140800, 12800, 38400, -153600] ∧
      (centeringStep recipe5 smallFiller).dose.lineOffset = 50 := by decide
theorem test_hold_of_valve_23 :
    ((after (.valveHold .quality [23]) (lineIn .run)).valve 23).state = .blocked .quality := by decide
theorem test_free_of_valve_23 :
    ((after (.valveFree .supervisor [23]) (lineIn .run)).valve 23).state = .probation 5 := by decide

/-! ## Loads, states and causes (sections 10.6 and 11.5) -/

theorem test_layout_in_figures :
    layoutValid layout5 = true ∧ layoutValid { layout5 with readerWindow := 480 } = false := by decide
theorem test_last_load_reaches_ready :
    (after (.calLoad .supervisor (calibrationBytes cal5))
      { lineIn .config with store := { (lineIn .config).store with calibration := none } }).control.state = .ready := by
  decide
theorem test_start : (after (.start .supervisor []) (lineIn .ready)).control.state = .run := by decide
theorem test_clear_from_halt : (after (.clear .supervisor []) (lineIn .halt)).control.lineStop = false := by decide
theorem test_highest_cause_first :
    ((raiseAll .haltEntered 2 (raiseAll .rejectFault 1207 (raiseAll .valveSuspect 23 State.reset))).att
      .supervisor).pending.map PendingCause.cause = [.haltEntered, .rejectFault, .valveSuspect, .powerUp] := by decide

/-! ## States that meet the hypotheses of the statements, clause by clause -/

/-- A released part whose links are idle takes every request. -/
theorem awaits_of_idle {s : State} (f : RequestFrame) (h : s.resetHeld = false) (hl : s.links = State.reset.links) :
    s.awaits f := by
  refine ⟨h, ?_⟩
  unfold State.link
  rw [hl]
  cases f with | mk l k p st => cases l <;> rfl

theorem line_awaits (op : OpState) (f : RequestFrame) : (lineIn op).awaits f := awaits_of_idle f rfl rfl

theorem line_tableWhole (op : OpState) : (lineIn op).tableWhole := ⟨rfl, by cases op <;> decide⟩

theorem witness_IdleStep :
    (State.reset.pending = [] ∧ dueNow State.reset = [] ∧ counting State.reset = false) ∧
    (dueNow { State.reset with now := 10000000 } ≠ []) ∧
    (dueNow counted = [] ∧ counting counted = true ∧ counted.weigh.period < 65535) ∧
    (let s := { counted with weigh := { counted.weigh with period := 65535 } };
      dueNow s = [] ∧ counting s = true ∧ 65535 ≤ s.weigh.period) := by decide

/-- The filler link with entries waiting and its assembler in a state. -/
def arriving (a : FrameAssembler) (es : List Entry) : State :=
  let m := MasterLink.reset Straps.low.filler;
  (lineIn .run).setLink .filler { m.setRx { m.port.rx with fifo := es } with assembler := a }

/-- The payloads of 0 and of 120 characters. -/
theorem witness_FrameIsAssembledAsSent :
    ∀ p ∈ [[], List.replicate 120 (0 : Byte)],
      let s := arriving .hunt ((frameCharacters 0x1A p).mapIdx (fun _ c => cleanEntry c (some 10000)) ++ []);
      p.length ≤ 120 ∧ s.resetHeld = false ∧ (s.link .filler).takes = true ∧ (s.link .filler).assembler = .hunt := by
  decide

/-- A character, flagged or not, waiting before an assembler. -/
def before (a : FrameAssembler) (c : Byte) (bad : Bool) : State := arriving a [{ cleanEntry c none with parity := bad }]

theorem witness_FrameEntryActs :
    (∀ a ∈ [FrameAssembler.hunt, .kind none, .length none 1, .payload none 1 2 [], .payload none 1 1 [],
        .check none 0x1A 0 []],
      ∀ c ∈ [(0 : Byte), 0x02, 120, 121, 0xE6], ∀ bad ∈ [false, true],
        (before a c bad).resetHeld = false ∧ ((before a c bad).link .filler).held = none ∧
        ((before a c bad).link .filler).port.rx.fifo = { cleanEntry c none with parity := bad } :: [] ∧
        ((before a c bad).link .filler).request = none ∧ ((before a c bad).link .filler).assembler = a ∧
        { cleanEntry c none with parity := bad }.flagged = bad) ∧
    ((arriving .hunt [gapOf false none]).link .filler).port.rx.fifo = gapOf false none :: [] ∧
    sumBytes (0x1A :: 0 :: ([] ++ [0xE6])) = 0 ∧ sumBytes (0x1A :: 0 :: ([] ++ [0x02])) ≠ 0 := by decide

/-- The filler link with a receiver and a phase. -/
def receiving (n : Nat) (lost low : Bool) (silence : Option Moment) : State :=
  let m := MasterLink.reset Straps.low.filler;
  { (lineIn .run) with now := 100000 }.setLink .filler
    (m.setRx { fifo := List.replicate n (cleanEntry 0 none), lost := lost, silence := silence, breakLow := low })

set_option maxRecDepth 20000 in
/-- Levels 127 and 128 at the FIFO's end, an Xoff between frames, and a silence of 34,896 ticks, the first
beyond 33.5 bit periods at 19,200 bit/s. -/
theorem witness_LinkReception :
    (let s := receiving 127 true false none;
      s.resetHeld = false ∧ (s.link .filler).port.rx.breakLow = false ∧ (s.link .filler).port.rx.fifo.length < 128 ∧
        (s.link .filler).port.rx.lost = true) ∧
    128 ≤ ((receiving 128 false false none).link .filler).port.rx.fifo.length ∧
    ((receiving 0 false true none).link .filler).port.rx.breakLow = true ∧
    (let e := entryOf 0x13 true true false none;
      ((receiving 0 false false none).link .filler).phase = .between ∧ e.parity = false ∧ e.framing = false ∧
        e.brk = false) ∧
    (let s := receiving 127 false false (some 65104);
      67 * 20000000 < 2 * linkSpeed (s.link .filler).port.straps * (s.now - 65104) ∧
        ¬67 * 20000000 < 2 * linkSpeed (s.link .filler).port.straps * (s.now - 65105)) ∧
    (let s := receiving 128 false false (some 65104);
      67 * 20000000 < 2 * linkSpeed (s.link .filler).port.straps * (s.now - 65104) ∧
        128 ≤ (s.link .filler).port.rx.fifo.length) := by decide

theorem witness_BreaksAndTheirEnds :
    (receiving 1 false false none).resetHeld = false ∧
    ((receiving 1 false false none).link .filler).port.rx.breakLow = false ∧
    ((receiving 1 false true none).link .filler).port.rx.breakLow = true ∧
    (lineIn .run).reader.rx.breakLow = false ∧ (lineIn .run).code.flow = .opened ∧
    (let rd := (lineIn .run).reader;
      { lineIn .run with reader := { rd with rx := { rd.rx with breakLow := true } } }.reader.rx.breakLow = true) ∧
    { lineIn .run with code := { CodeUnit.reset with flow := .held } }.code.flow = .held := by decide

/-- The supervisor link paused, with an answer held and a transmit FIFO. -/
def sending (n : Nat) (pause : Option Moment) (began : Option Moment) : State :=
  let m := MasterLink.reset Straps.low.supervisor;
  { (lineIn .run) with now := 20000 }.setLink .supervisor { m with
    pause := pause, held := some (answerFrame 1 (Reply.ok []))
    port := { m.port with
      tx := { fifo := List.replicate n 0x55, sending := began.map (fun b => { char := 0, began := b }) } } }

set_option maxRecDepth 20000 in
/-- A pause that ends now, room for exactly the 5 characters of an answer, and a character begun 11,459 ticks ago. -/
theorem witness_LinkTimesAndTransmitters :
    (let s := sending 123 (some 20000) none;
      s.resetHeld = false ∧ (s.link .supervisor).pause = some 20000 ∧ 20000 ≤ s.now ∧
      (s.link .supervisor).held = some (answerFrame 1 (Reply.ok [])) ∧
      (s.link .supervisor).port.tx.fifo.length + (answerFrame 1 (Reply.ok [])).length ≤ 128) ∧
    (let s := { lineIn .run with now := 10000000 };
      (s.att .quality).hold = some 10000000 ∧ 10000000 ≤ s.now) ∧
    (let s := sending 1 none (some 8541);
      (s.port .supervisor).tx.fifo = 0x55 :: [] ∧ (s.link .supervisor).pause = none ∧
        22 * 20000000 ≤ 2 * linkSpeed (s.port .supervisor).straps * (s.now - 8541)) := by decide

set_option maxRecDepth 20000 in
theorem witness_AnswersAreFormedAndPlaced :
    (Reply.ok (List.replicate 120 0)).payload.length ≤ 120 ∧
    ((sending 123 none none).link .supervisor).port.tx.fifo.length + (answerFrame 1 (Reply.ok [])).length ≤ 128 ∧
    128 < ((sending 124 none none).link .supervisor).port.tx.fifo.length + (answerFrame 1 (Reply.ok [])).length := by
  decide

theorem witness_RequestChecks :
    ((lineIn .run).awaits ⟨.quality, Kind.start.code, [], none⟩ ∧ (Instr.start .quality []).wellFormed = true ∧
      permitted .start .quality = false) ∧
    ((lineIn .run).awaits ⟨.supervisor, Kind.start.code, [0], none⟩ ∧ (Instr.start .supervisor [0]).wellFormed = true ∧
      permitted .start .supervisor = true ∧ lengthOk .start [0] = false) ∧
    ((lineIn .run).awaits ⟨.filler, 0x85, [], none⟩ ∧ Kind.ofCode 0x85 = none) ∧ Kind.ofCode 0x01 = some .fillReport ∧
    Kind.start ≠ .recipeLoad :=
  ⟨⟨line_awaits _ _, by decide⟩, ⟨line_awaits _ _, by decide⟩, ⟨line_awaits _ _, by decide⟩, by decide⟩

theorem witness_ReadsAndViews :
    (∀ f, (lineIn .run).awaits f) ∧ (191 : Byte).toNat ≤ 191 ∧ 1 ≤ (8 : Byte).toNat ∧ (8 : Byte).toNat ≤ 8 ∧
    3 < (4 : Byte).toNat ∧ 1 ≤ (24 : Byte).toNat ∧ (24 : Byte).toNat ≤ (lineIn .run).valveCount ∧
    (lineIn .run).valveCount < (25 : Byte).toNat ∧ 1 < (2 : Byte).toNat ∧ 191 < (192 : Byte).toNat ∧ (0 : Byte).toNat < 1 ∧
    8 < (9 : Byte).toNat :=
  ⟨line_awaits _, by decide⟩

/-- The line with the reset pin held. -/
def heldLow : State := after .resetPinAssert (lineIn .run)

theorem witness_ResetCommands : (lineIn .run).resetHeld = false ∧ heldLow.resetHeld = true := by decide

theorem witness_NothingTakenWhileResetHeld :
    heldLow.resetHeld = true ∧ Instr.resets .eyeBlockingEdge = false ∧
      exec .eyeBlockingEdge heldLow = .next (after .eyeBlockingEdge heldLow) ∧
      (after .eyeBlockingEdge heldLow).pins.eye = true ∧ Instr.resets .confirmInputActive = false ∧
      (after .confirmInputActive heldLow).pins.confirm = true ∧ (after .confirmInputActive heldLow).gate.qualify = none :=
  ⟨by decide, rfl, rfl, by decide, rfl, by decide, by decide⟩

theorem witness_StepKeepsLineStop :
    (lineIn .halt).lineStopAgrees ∧ step (lineIn .halt) = .next (idle (lineIn .halt)) :=
  ⟨by simp [lineIn, State.lineStopAgrees], rfl⟩

theorem witness_StepKeepsAttention : (lineIn .run).attentionAgrees ∧ step (lineIn .run) = .next (idle (lineIn .run)) :=
  ⟨fun l => by cases l <;> exact ⟨fun _ => by decide, by unfold Attention.ordered; decide⟩, rfl⟩

theorem witness_StepKeepsCapacities :
    (withRecord 10398 .filled).withinCapacity ∧ step (lineIn .run) = .next (idle (lineIn .run)) :=
  ⟨⟨by decide, by decide, by decide, (by intro m t h; cases h), by decide, by decide, by decide, by decide,
    fun l => by cases l <;> exact ⟨by decide, by decide⟩, by decide⟩, rfl⟩

theorem line_doseBounded : (lineIn .run).doseBounded :=
  ⟨line_tableWhole _, by decide, by decide, by decide, by decide, by decide⟩

theorem witness_StepKeepsDoseBounds : (lineIn .run).doseBounded ∧ step (lineIn .run) = .next (idle (lineIn .run)) :=
  ⟨line_doseBounded, rfl⟩

theorem record_generationsAgree : (withRecord 10398 .filled).generationsAgree := by
  refine ⟨by decide, fun c hc => Or.inl ⟨_, rfl, ?_⟩, fun h hh => ?_, fun h hh => nomatch hh⟩
  · obtain rfl := List.mem_singleton.mp hc; rfl
  · obtain rfl := Option.some.inj hh; decide

theorem witness_StepKeepsGenerations :
    (withRecord 10398 .filled).generationsAgree ∧
      step (withRecord 10398 .filled) = .next (idle (withRecord 10398 .filled)) := ⟨record_generationsAgree, rfl⟩

theorem witness_StepKeepsPlatform : onPlatform.platformAgrees ∧ step onPlatform = .next (idle onPlatform) :=
  ⟨by simp [onPlatform, withRecord, lineIn, State.reset, State.platformAgrees, OpState.working], rfl⟩

theorem witness_LinksAreIndependent :
    Instr.resets (.linkBreak .filler) = false ∧ Instr.link? (.linkBreak .filler) ≠ some .quality ∧
      exec (.linkBreak .filler) (lineIn .run) = .next (after (.linkBreak .filler) (lineIn .run)) := ⟨rfl, by decide, rfl⟩

theorem witness_HaltIsLeftByRequest :
    (lineIn .halt).control.state = .halt ∧
      exec (.clear .supervisor []) (lineIn .halt) = .next (after (.clear .supervisor []) (lineIn .halt)) ∧
      (after (.clear .supervisor []) (lineIn .halt)).control.state ≠ .halt := ⟨rfl, rfl, by decide⟩

/-- The line frozen, with record 812's weighing in progress. -/
def frozenLine : State :=
  { onPlatform with dose := { onPlatform.dose with freeze := { line := true, supervisor := false } } }

theorem witness_FrozenPartHoldsItsTrims :
    frozenLine.frozen = true ∧ Instr.resets .eyeClearingEdge = false ∧
      exec .eyeClearingEdge frozenLine = .next (after .eyeClearingEdge frozenLine) ∧
      (after .eyeClearingEdge frozenLine).tracking.queue.map CanRecord.stage = [.weighed] := ⟨by decide, rfl, rfl, by decide⟩

theorem witness_PositionAndSerialMoves :
    Instr.resets .encoderPulse = false ∧ exec .encoderPulse (lineIn .run) = .next (after .encoderPulse (lineIn .run)) ∧
      (after .encoderPulse (lineIn .run)).tracking.position = 10001 := ⟨rfl, rfl, by decide⟩

theorem witness_ArithmeticOfTheManual :
    (0 : Nat) < 2 ∧ (0 : Int) ≤ 5 ∧ (-2 : Int) ≤ 2 ∧ (-3 : Int) < -2 ∧ (2 : Int) < 3 ∧ ((-2 : Int)).natAbs ≤ 2 := by decide

/-- The weighing of record 812 at a position, with the record at a stage. -/
def dwellAt (x : Position) (stage : Stage) : State :=
  { onPlatform with tracking := { onPlatform.tracking with position := x, queue := [{ record812 with stage := stage }] } }

/-- Elapsed distances 430 and 431, 940 and 941, 1,499 and 1,500; dwell distances 60 and 61; and a slip run that comes to its
alarm. -/
theorem witness_EncoderPulsesAndPasses :
    (let s := { lineIn .run with store := { (lineIn .run).store with layout := some { layout5 with divider := 2 } } };
      s.resetHeld = false ∧ s.tracking.residue + 1 < 2 ∧ s.store.layout = some { layout5 with divider := 2 }) ∧
    (State.reset.store.layout = none ∧ 1 ≤ State.reset.tracking.residue + 1) ∧
    (let s := withRecord 11499 .read;
      s.resetHeld = false ∧ s.store.layout = some layout5 ∧ layout5.divider ≤ s.tracking.residue + 1 ∧
        s.tracking.queue = { record812 with stage := .read } :: []) ∧
    (let s := dwellAt 10458 .onPlatform;
      s.resetHeld = false ∧ s.store.layout = some layout5 ∧ s.weigh.platform = .dwell weighing812 ∧
        (layout5.maxDwell : Int) < posDiff (s.tracking.position + 1) weighing812.arrival ∧
        ¬(layout5.maxDwell : Int) < posDiff s.tracking.position weighing812.arrival) ∧
    (pastPlatform layout5 10431 record812 = true ∧ pastPlatform layout5 10430 record812 = false ∧
      2 < layout5.slipAlarm ∧ layout5.slipAlarm ≤ min 255 (2 + 1)) ∧
    (pastReader layout5 10941 record812 = true ∧ pastReader layout5 10940 record812 = false) ∧
    (record812.elapsed 11499 < layout5.rejectDistance ∧ (layout5.rejectDistance : Int) ≤ record812.elapsed 11500) ∧
    ((dwellAt 10458 .onPlatform).tracking.queue = [] ++ { record812 with stage := .onPlatform } :: [] ∧
      weighing812.binding = some record812.serial ∧
      (∀ c ∈ (dwellAt 10458 .read).tracking.queue, ¬(c.serial = 812 ∧ c.stage = .onPlatform))) := by decide

/-- READY with a zero capture in progress, and READY with a weighing unit that waits for the eye to clear. -/
def capturing : State :=
  let s := lineIn .ready
  { s with weigh := { s.weigh with capture := { Capture.reset with kind := .zero, outcome := .inProgress } } }
def waiting : State :=
  let s := lineIn .ready
  { s with pins := { s.pins with eye := true }, weigh := { s.weigh with platform := .waitClear } }

/-- Elapsed distances 370 and 430, the two ends of the window; and CONFIG with the eye's other edges. -/
theorem witness_EyeBlocks :
    (∀ d ∈ [370, 430],
      let s := withRecord (10000 + BitVec.ofNat 24 d) .filled;
      s.resetHeld = false ∧ s.control.state = .run ∧ s.store.layout = some layout5 ∧ s.weigh.platform = .empty ∧
      s.tracking.queue = [] ++ record812 :: [] ∧ record812.stage = .filled ∧
      (layout5.platformDistance : Int) - layout5.platformWindow ≤ record812.elapsed s.tracking.position ∧
      record812.elapsed s.tracking.position ≤ (layout5.platformDistance : Int) + layout5.platformWindow) ∧
    ((lineIn .ready).control.state = .ready ∧ (lineIn .ready).weigh.platform = .empty ∧
      ¬((lineIn .ready).weigh.capture.outcome = .inProgress ∧ (lineIn .ready).weigh.capture.kind = .zero)) ∧
    (capturing.control.state = .ready ∧ capturing.weigh.platform = .empty ∧ capturing.weigh.capture.outcome = .inProgress ∧
      capturing.weigh.capture.kind = .zero) ∧
    (State.reset.control.state = .config ∧ State.reset.weigh.platform = .idle) ∧
    ((withRecord 10431 .filled).weigh.platform = .empty ∧ pastPlatform layout5 10431 record812 = true) := by decide

/-- A queue of 192 records. -/
def fullQueue : State :=
  let s := lineIn .run;
  { s with tracking := { s.tracking with queue := List.replicate 192 { record812 with stage := .read } } }

set_option maxRecDepth 20000 in
/-- Elapsed distance 369, just short of the window; no FILLED record; and a full queue. -/
theorem witness_ArrivalWithoutClaim :
    (let s := withRecord 10369 .filled;
      s.resetHeld = false ∧ s.control.state = .run ∧ s.store.layout = some layout5 ∧ s.weigh.platform = .empty ∧
      s.tracking.queue = [] ++ [record812] ∧ record812.stage = .filled ∧ s.tracking.queue.length < 192 ∧
      record812.elapsed s.tracking.position < (layout5.platformDistance : Int) - layout5.platformWindow) ∧
    (fullQueue.resetHeld = false ∧ fullQueue.control.state = .run ∧ fullQueue.store.layout = some layout5 ∧
      fullQueue.weigh.platform = .empty ∧ (∀ a ∈ fullQueue.tracking.queue, a.stage ≠ .filled) ∧
      192 ≤ fullQueue.tracking.queue.length) ∧
    (lineIn .run).tracking.queue = [] ++ [] := by decide

theorem witness_FillReportMakesRecord :
    (∀ f, (lineIn .run).awaits f) ∧ (lineIn .run).tableWhole ∧
    ((lineIn .run).control.state = .run ∧ 1 ≤ (24 : Byte).toNat ∧ (24 : Byte).toNat ≤ (lineIn .run).valveCount ∧
      ((1 : Byte) = 0 ∨ (1 : Byte) = 1) ∧ ¬((0 : Byte) = 0 ∧ (1 : Byte) = 0) ∧ (lineIn .run).tracking.queue.length < 192) :=
  ⟨line_awaits _, line_tableWhole _, by decide⟩

set_option maxRecDepth 20000 in
theorem witness_FillReportWithoutRecord :
    (∀ f, (lineIn .run).awaits f) ∧ (∀ f, (lineIn .ready).awaits f) ∧ (∀ f, fullQueue.awaits f) ∧
    ((lineIn .ready).control.state = .ready ∧ (lineIn .run).valveCount < (25 : Byte).toNat ∧ (0 : Byte).toNat < 1 ∧
      3 < (4 : Byte).toNat ∧ (0 : Byte) ≠ 3 ∧ fullQueue.control.state = .run ∧ 192 ≤ fullQueue.tracking.queue.length ∧
      1 ≤ (24 : Byte).toNat ∧ (24 : Byte).toNat ≤ fullQueue.valveCount ∧ ¬((0 : Byte) = 0 ∧ (1 : Byte) = 0)) ∧
    fullQueue.tableWhole :=
  ⟨line_awaits _, line_awaits _, fun f => awaits_of_idle f rfl rfl, by decide, ⟨rfl, by decide⟩⟩

/-- The line with a line command of count `n` at the moment its closing high reaches 40 ms. -/
def commandOf (n : Nat) (op : OpState) : State :=
  { lineIn op with now := 800000, control := { (lineIn op).control with decoder := .space n } }

/-- READY with record 812 still in the queue, of the recipe that has become previous. -/
def twoRecipes (op : OpState) : State :=
  let s := withRecord 10398 .filled;
  { s with
    control := (lineIn op).control
    store := { s.store with
      previous := some { recipe := recipe5, generation := 5, count := 1 }
      current := some { recipe := recipe5, generation := 6, count := 0 }, nextGeneration := 7 } }

theorem two_generationsAgree : (twoRecipes .ready).generationsAgree := by
  refine ⟨by decide, fun c hc => Or.inr ⟨_, rfl, ?_⟩, fun h hh => ?_, fun h hh => ?_⟩
  · obtain rfl := List.mem_singleton.mp hc; rfl
  · obtain rfl := Option.some.inj hh; decide
  · obtain rfl := Option.some.inj hh; decide

/-- A can list with one unread summary, the level at 2. -/
def listOf (n unread level : Nat) : CanList :=
  { ring := List.replicate n (summaryOf record812 .accept false), unread := unread, level := level, armed := true }

/-- A flush, or a hand-over, that takes the unread count from 1 to the level of 2 with the flag armed; and from 0 to 1. -/
theorem witness_flushedList :
    (let s := { twoRecipes .ready with canList := listOf 1 1 2 };
      s.canList.armed = true ∧ s.canList.unread < min 256 (s.canList.unread + s.tracking.queue.length) ∧
        s.canList.level ≤ min 256 (s.canList.unread + s.tracking.queue.length) ∧ s.canList.unread < 256 ∧
        s.canList.level ≤ s.canList.unread + 1 ∧ s.canList.unread ≤ s.canList.ring.length) ∧
    (let s := { twoRecipes .ready with canList := listOf 0 0 2 };
      ¬s.canList.level ≤ min 256 (s.canList.unread + s.tracking.queue.length) ∧ ¬s.canList.level ≤ s.canList.unread + 1) := by
  decide

theorem witness_FlushEmptiesTheQueue :
    (withRecord 10398 .filled).awaits ⟨.supervisor, Kind.flush.code, [], none⟩ ∧
    (let s := withRecord 10398 .filled;
      s.resetHeld = false ∧ s.control.state ≠ .config ∧ s.canList.ring.length ≤ 256 ∧
        s.canList.unread ≤ s.canList.ring.length) ∧
    ((commandOf 4 .run).control.decoder = .space 4 ∧ ms 40 ≤ (commandOf 4 .run).spell) ∧
    (∀ f, (lineIn .config).awaits f) ∧
    ((lineIn .config).control.state = .config ∧ (commandOf 4 .config).control.state = .config ∧
      (commandOf 4 .config).control.decoder = .space 4 ∧ ms 40 ≤ (commandOf 4 .config).spell) ∧
    (withRecord 10398 .filled).generationsAgree ∧ (twoRecipes .ready).generationsAgree ∧
    ((withRecord 10398 .filled).store.previous = none ∧ (twoRecipes .ready).store.previous ≠ none) :=
  ⟨awaits_of_idle _ rfl rfl, by decide, by decide, line_awaits _, by decide, record_generationsAgree, two_generationsAgree,
    by decide⟩

/-- The line with a weighing in progress and a conversion about to complete after `ticks`. -/
def dwelling (ticks run : Nat) (w : Weighing) : State :=
  { onPlatform with weigh := { onPlatform.weigh with platform := .dwell w, period := ticks, cellRun := run } }

/-- Conversions of 21,334 and 64,000 ticks, the two ends of the band at N = 64; one outside it; and an overflow. -/
theorem witness_ConversionsValidAndInvalid :
    (∀ ticks ∈ [21334, 64000],
      let s := dwelling ticks 0 weighing812;
      s.resetHeld = false ∧ s.weigh.conversion = .running ∧ s.weigh.platform = .dwell weighing812 ∧
      s.weigh.fz = some 300000 ∧ s.weigh.span = some 11362 ∧ weighing812.buffer.length ≤ 24 ∧
      200000 ≤ frequencyOf s.cal.periodSetting s.weigh.period ∧ frequencyOf s.cal.periodSetting s.weigh.period ≤ 600000) ∧
    (∀ run ∈ [6, 7],
      let s := dwelling 64001 run weighing812;
      s.weigh.conversion = .running ∧ s.weigh.cellRun = run ∧ frequencyOf s.cal.periodSetting s.weigh.period < 200000) ∧
    (let s := dwelling 65535 7 weighing812;
      s.weigh.conversion ≠ .stopped ∧ 65535 ≤ s.weigh.period) ∧
    (let s := { lineIn .run with weigh := { (lineIn .run).weigh with conversion := .waiting } };
      s.resetHeld = false ∧ s.weigh.conversion = .waiting) := by decide

/-- The line empty and settled, with a conversion of a deviation of 200 dHz, the zero band, or of one beyond it. -/
def settledAt (ticks run : Nat) : State :=
  { lineIn .run with weigh := { (lineIn .run).weigh with period := ticks, zeroRun := run, settleCount := 2 } }

theorem witness_ZeroTrackingStep :
    (∀ x ∈ [(42650, 0), (42600, 14), (42600, 15)],
      let s := settledAt x.1 x.2;
      s.resetHeld = false ∧ s.weigh.conversion = .running ∧ s.weigh.platform = .empty ∧ s.weigh.zeroState = .normal ∧
      s.weigh.capture.outcome ≠ .inProgress ∧ s.weigh.fz = some 300000 ∧ s.cal.zeroSettle ≤ s.weigh.settleCount ∧
      200000 ≤ frequencyOf 64 s.weigh.period ∧ frequencyOf 64 s.weigh.period ≤ 600000) ∧
    ((frequencyOf 64 42650 : Int) - 300000).natAbs ≤ 200 ∧ 200 < ((frequencyOf 64 42600 : Int) - 300000).natAbs ∧
    1 ≤ cal5.zeroRate ∧
    (let s := { settledAt 42650 0 with weigh := { (settledAt 42650 0).weigh with settleCount := 1 } };
      s.weigh.settleCount < s.cal.zeroSettle ∧ s.weigh.platform = .empty ∧ s.weigh.capture.outcome ≠ .inProgress) ∧
    (let s := { settledAt 42650 0 with weigh := { (settledAt 42650 0).weigh with zeroState := .zeroFault } };
      s.cal.zeroSettle ≤ s.weigh.settleCount ∧ s.weigh.zeroState = .zeroFault) := by decide

/-- READY with a capture in progress, and READY with the eye blocked. -/
theorem witness_CaptureRequests :
    (∀ op f, (lineIn op).awaits f) ∧
    ((lineIn .run).control.state ≠ .ready ∧ (lineIn .ready).control.state = .ready ∧
      (lineIn .ready).weigh.capture.outcome ≠ .inProgress ∧ (lineIn .ready).weigh.platform ≠ .waitClear ∧
      waiting.weigh.platform = .waitClear ∧
      capturing.weigh.capture.outcome = .inProgress ∧
      1000 ≤ 3 * 256 + 232 ∧ (3 * 65536 + 208 * 256 + 144 : Nat) ≤ 250000 ∧
      (commandOf 5 .ready).control.decoder = .space 5 ∧ ms 40 ≤ (commandOf 5 .ready).spell ∧
      (commandOf 5 .run).control.state ≠ .ready) ∧
    (let s := { commandOf 5 .ready with weigh := waiting.weigh };
      s.resetHeld = false ∧ s.control.decoder = .space 5 ∧ ms 40 ≤ s.spell ∧ s.control.state = .ready ∧
        s.weigh.capture.outcome ≠ .inProgress ∧ s.weigh.platform = .waitClear) :=
  ⟨line_awaits, by decide, by decide⟩

/-- A capture at its 64th conversion, of a kind and with a test mass. -/
def lastConversion (k : CaptureKind) (mass sum : Nat) : State :=
  { lineIn .ready with weigh := { (lineIn .ready).weigh with
    period := 38790, settleCount := 2
    capture := { Capture.reset with kind := k, outcome := .inProgress, count := 63, sum := sum, testMass := some mass } } }

theorem witness_CaptureCompletes :
    (∀ x ∈ [(CaptureKind.zero, 0), (.span, 20788866), (.span, 0)],
      let s := lastConversion x.1 50000 x.2;
      s.resetHeld = false ∧ s.weigh.conversion = .running ∧ s.weigh.platform = .empty ∧ s.weigh.fz = some 300000 ∧
      s.weigh.capture.outcome = .inProgress ∧ s.weigh.capture.count = 63 ∧ s.cal.zeroSettle ≤ s.weigh.settleCount ∧
      s.weigh.capture.kind = x.1) ∧
    (20788866 + frequencyOf 64 38790 = 21118848 ∧ 0 < loadFigure 329982 300000 ∧
      captureSpan 50000 329982 300000 = some 11369) ∧
    loadFigure (captureMean { Capture.reset with sum := frequencyOf 64 38790 }) 300000 ≤ 0 ∧
    (let s := lastConversion .span 50000 0;
      let t := { s with weigh := { s.weigh with
        platform := .waitClear, settleCount := 0, capture := { s.weigh.capture with count := 62 } } };
      t.weigh.conversion = .running ∧ t.weigh.fz = some 300000 ∧ t.weigh.capture.outcome = .inProgress ∧
        t.weigh.capture.kind = .span ∧ t.weigh.platform = .waitClear ∧ t.weigh.capture.count + 1 < 64 ∧
        200000 ≤ frequencyOf 64 t.weigh.period ∧ frequencyOf 64 t.weigh.period ≤ 600000) := by decide

theorem witness_EyeClears :
    (waiting.resetHeld = false ∧
      waiting.weigh.platform = .waitClear) ∧
    (let w := { weighing812 with binding := none };
      (dwelling 0 0 w).weigh.platform = .dwell w ∧ w.binding = none) ∧
    (onPlatform.weigh.platform = .dwell weighing812 ∧ weighing812.binding = some 812 ∧
      onPlatform.tracking.queue = [] ++ { record812 with stage := .onPlatform } :: [] ∧ record812.serial = 812 ∧
      record812.origin = .filled ∧ record812.valve = some 17 ∧
      onPlatform.store.current = some { recipe := recipe5, generation := 5, count := 1 } ∧
      (5 : Generation) = record812.generation ∧ record812.fillStatus = .normal ∧
      (onPlatform.valve 17).state.steered = true ∧ onPlatform.frozen = false ∧ frozenLine.frozen = true) ∧
    (let s := dwellAt 10409 .read;
      s.resetHeld = false ∧ s.weigh.platform = .dwell weighing812 ∧ weighing812.binding = some 812 ∧
        ∀ c ∈ s.tracking.queue, ¬(c.serial = 812 ∧ c.stage = .onPlatform)) ∧
    (let orphan := { record812 with stage := .onPlatform, origin := .orphan, valve := none };
      let s := { onPlatform with tracking := { onPlatform.tracking with queue := [orphan] } };
      s.tracking.queue = [] ++ orphan :: [] ∧ orphan.serial = 812 ∧ orphan.stage = .onPlatform) := by decide

/-- The reader link with `n` entries waiting, and its silence watched from a moment. -/
def readerAt (n : Nat) (silence : Option Moment) (flow : FlowState) : State :=
  let rd := (lineIn .run).reader;
  { lineIn .run with
    now := 100000, code := { CodeUnit.reset with flow := flow }
    reader := { rd with rx := { rd.rx with fifo := List.replicate n (cleanEntry 0x41 (some 1)), silence := silence } } }

theorem witness_ReaderEntryStored :
    (let s := readerAt 95 (some 65104) .opened;
      s.resetHeld = false ∧ s.reader.rx.breakLow = false ∧ s.reader.rx.fifo.length = 95 ∧ s.code.flow = .opened ∧
      s.reader.rx.silence = some 65104 ∧ 67 * 20000000 < 2 * linkSpeed s.reader.straps * (s.now - 65104)) ∧
    (readerAt 127 none .opened).reader.rx.fifo.length < 128 ∧ 128 ≤ (readerAt 128 none .opened).reader.rx.fifo.length ∧
    (let s := readerAt 128 (some 65104) .held;
      s.reader.rx.silence = some 65104 ∧ 67 * 20000000 < 2 * linkSpeed s.reader.straps * (s.now - 65104) ∧
        128 ≤ s.reader.rx.fifo.length) := by
  decide

/-- Level 32 after the take, from HELD; each state of the assembler; each kind of entry. -/
theorem witness_ReaderEntryTaken :
    (let s := readerAt 33 none .held;
      s.resetHeld = false ∧ s.code.message = none ∧
      s.reader.rx.fifo = cleanEntry 0x41 (some 1) :: List.replicate 32 (cleanEntry 0x41 (some 1)) ∧ s.code.flow = .held) ∧
    (∀ a ∈ [MessageAssembler.idle, .collecting [0x41], .collecting (List.replicate 24 0x41), .discard],
      let s := readerAt 1 none .opened;
      { s with code := { s.code with assembler := a } }.code.assembler = a ∧
        { s with code := { s.code with assembler := a } }.code.message = none) ∧
    (cleanEntry 0x7E none).flagged = false ∧ (cleanEntry 0x1F none).flagged = false ∧
    { cleanEntry 0x41 none with overrun := true }.flagged = true ∧ (gapOf false none).char = none := by decide

/-- Elapsed distances 859, 860 and 940 at the stamp. -/
theorem witness_MessageIsMatched :
    ((messageAt .read).resetHeld = false ∧ (messageAt .read).store.layout = some layout5 ∧
      (messageAt .read).code.message ≠ none ∧ (∀ c ∈ (messageAt .read).tracking.queue, c.stage ≠ .weighed)) ∧
    ((messageAt .weighed).tracking.queue = [] ++ { record812 with stage := .weighed } :: []) ∧
    record812.elapsed 10859 < (layout5.readerDistance : Int) - layout5.readerWindow ∧
    (layout5.readerDistance : Int) - layout5.readerWindow ≤ record812.elapsed 10860 ∧
    record812.elapsed 10940 ≤ (layout5.readerDistance : Int) + layout5.readerWindow ∧
    pastReader layout5 10941 record812 = true := by decide

/-- The line with 32 confirm windows open, the run at 2. -/
def windowsFull : State :=
  { lineIn .run with
    gate := { GateUnit.reset with windows := List.replicate 32 { serial := 700, expiry := 1000 }, unconfirmed := 2 } }

theorem witness_HandOverAtTheGate :
    ((verdictOf [.halted]).drives = true ∧ (verdictOf [.missed]).drives = false ∧ (lineIn .run).gate.confirmLevel = false ∧
      (lineIn .run).gate.windows.length < 32 ∧ { GateUnit.reset with confirmLevel := true }.confirmLevel = true) ∧
    (windowsFull.gate.confirmLevel = false ∧
      windowsFull.gate.windows = { serial := 700, expiry := 1000 } :: List.replicate 31 { serial := 700, expiry := 1000 } ∧
      32 ≤ windowsFull.gate.windows.length ∧ windowsFull.gate.unconfirmed = 2 ∧ (lineIn .run).gate.unconfirmed ≠ 2 ∧
      windowsFull.canList.ring.length ≤ 256) ∧
    (record812.valve = some 17 ∧ ((lineIn .run).valve 17).state ≠ .unused ∧ ((lineIn .run).valve 25).state = .unused) ∧
    ((twoRecipes .run).store.previous = some { recipe := recipe5, generation := 5, count := 1 } ∧
      (5 : Generation) = record812.generation ∧ (lineIn .run).store.previous = none ∧
      (let st := (twoRecipes .run).store;
        { st with previous := some { recipe := recipe5, generation := 5, count := 2 } }.previous ≠ none)) := by
  decide

/-- The line with two confirm windows open, the first of which expires at 1,000 ticks. -/
def windowsOpen (now : Moment) (run : Nat) : State :=
  { lineIn .run with
    now := now, pins := { State.reset.pins with confirm := true }
    gate := { GateUnit.reset with windows := [{ serial := 812, expiry := 1000 }, { serial := 813, expiry := 2000 }],
                                  unconfirmed := run, qualify := some 0, drive := some 20000 } }

theorem witness_ConfirmInputAndWindows :
    ((lineIn .run).resetHeld = false ∧ (lineIn .run).pins.confirm = false) ∧
    (let s := windowsOpen 20000 2;
      s.pins.confirm = true ∧ s.gate.qualify = some 0 ∧ 0 + 20000 ≤ s.now ∧ s.gate.windows ≠ [] ∧
        s.gate.drive = some 20000 ∧ 20000 ≤ s.now) ∧
    (let s := windowsOpen 1000 2;
      s.gate.windows = [] ++ { serial := 812, expiry := 1000 } :: [{ serial := 813, expiry := 2000 }] ∧ 1000 ≤ s.now ∧
        s.gate.unconfirmed = 2) ∧
    (windowsOpen 1000 1).gate.unconfirmed ≠ 2 := by decide

set_option maxRecDepth 20000 in
theorem witness_CanListKeepsAndGives :
    (∀ op f, (lineIn op).awaits f) ∧
    ((listOf 1 1 2).unread ≤ (listOf 1 1 2).ring.length ∧ (listOf 1 1 2).ring.length ≤ 256 ∧ (listOf 1 1 2).unread < 256 ∧
      (listOf 1 1 2).armed = true ∧ (listOf 1 1 2).level ≤ min 256 ((listOf 1 1 2).unread + 1)) ∧
    ((listOf 256 256 2).unread = 256 ∧ (listOf 256 256 2).ring.length ≤ 256) ∧
    ((0 : Byte).toNat < 1 ∧ 8 < (9 : Byte).toNat ∧ 1 ≤ (8 : Byte).toNat ∧ (8 : Byte).toNat ≤ 8) ∧
    (256 < 1 * 256 + 1 ∧ 1 * 256 + 0 ≤ 256 ∧ (lineIn .run).canList.unread < 1) :=
  ⟨line_awaits, by decide, by decide, by decide, by decide⟩

theorem witness_DoseServed :
    (lineIn .run).recipe = some recipe5 ∧ recipe5.doseMin ≤ recipe5.doseMax ∧ Valve.reset.state = .unused ∧
    valve23.state ≠ .unused ∧ (∀ h, valve23.state ≠ .blocked h) ∧
    -((600 : Int) * 2 ^ 8) ≤ -153600 ∧ (-153600 : Int) ≤ 600 * 2 ^ 8 ∧ recipe5.nominalDose ≤ 65535 ∧
    (trimOf valve23.accumulator recipe5.shift).natAbs ≤ 4095 :=
  ⟨rfl, by decide, rfl, by decide, fun _ => nofun, by decide, by decide, by decide, by decide⟩

theorem witness_DoseQueryAndBaseSet :
    (∀ op f, (lineIn op).awaits f) ∧ (lineIn .run).tableWhole ∧
    ((lineIn .config).control.state = .config ∧ (lineIn .run).control.state ≠ .config ∧
      (lineIn .run).valveCount < (10 : Byte).toNat + (16 : Byte).toNat - 1 ∧ 1 ≤ (16 : Byte).toNat ∧
      (16 : Byte).toNat ≤ 16 ∧ 1 ≤ (9 : Byte).toNat ∧ (9 : Byte).toNat + (16 : Byte).toNat - 1 ≤ (lineIn .run).valveCount ∧
      (lineIn .run).valveCount < (25 : Byte).toNat) :=
  ⟨line_awaits, line_tableWhole _, by decide⟩

/-- Errors of 20, the dead band, and of 21; a net at the edge of the tolerance and one outside; each kind of valve state; the
centering counter at 6 and at 7, where center every is 8. -/
theorem witness_ControlUpdateEntry :
    (lineIn .run).tableWhole ∧ 1 ≤ 17 ∧ 17 ≤ 64 ∧ 6 + 1 < recipe5.centerEvery ∧ recipe5.centerEvery ≤ 7 + 1 ∧
    ((lineIn .run).valve 17).netWindow.length ≤ 8 ∧ ((45400 : Int) - 45380).natAbs ≤ recipe5.deadBand ∧
    recipe5.deadBand < ((45400 : Int) - 45379).natAbs ∧ (recipe5.targetNet : Int) - recipe5.tolUnder ≤ 44950 ∧
    ¬((recipe5.targetNet : Int) - recipe5.tolUnder ≤ 44949) ∧ ((lineIn .run).valve 17).state = .active ∧
    recipe5.alertBand ≠ 0 ∧ ((lineIn .run).valve 23).state = .suspect :=
  ⟨line_tableWhole _, by decide⟩

theorem small_doseBounded : smallFiller.doseBounded :=
  ⟨⟨rfl, by decide⟩, by decide, by decide, by decide, by decide, by decide⟩

/-- A mean of 300, held back to 50 by valve 4 (section 5.8): 50 is allowed and 51 is not. -/
theorem witness_CenteringKeepsEveryDose :
    (lineIn .run).recipe = some recipe5 ∧ (lineIn .run).doseBounded ∧ smallFiller.recipe = some recipe5 ∧
    smallFiller.doseBounded ∧ activeTrims recipe5 smallFiller.inUse = [600, 100, 200] ∧
    recipe5.centerThreshold ≤ (roundAway 900 3).natAbs ∧
    (∀ e ∈ smallFiller.inUse, -153600 ≤ e.accumulator - 50 * 256 ∧ e.accumulator - 50 * 256 ≤ 153600) ∧
    ¬(∀ e ∈ smallFiller.inUse, -153600 ≤ e.accumulator - 51 * 256) :=
  ⟨rfl, line_doseBounded, rfl, small_doseBounded, by decide, by decide, by decide, by decide⟩

theorem witness_FreezeSources :
    (∀ f, (lineIn .run).awaits f) ∧ (commandOf 2 .config).resetHeld = false ∧
    (commandOf 2 .config).control.decoder = .space 2 ∧ ms 40 ≤ (commandOf 2 .config).spell ∧
    (commandOf 3 .halt).control.decoder = .space 3 :=
  ⟨line_awaits _, by decide⟩

/-- Valve 23 in a state, the line in RUN. -/
def withValve23 (st : ValveState) : State :=
  let s := lineIn .run;
  { s with dose := { s.dose with valves := s.dose.valves.set 22 { valve23 with state := st } } }

theorem witness_ValveHoldsAndReleases :
    (∀ st f, (withValve23 st).awaits f) ∧ (∀ op f, (lineIn op).awaits f) ∧ (∀ op, (lineIn op).tableWhole) ∧
    (lineIn .config).control.state = .config ∧ (lineIn .run).valveCount < (25 : Byte).toNat ∧
    (∀ st ∈ [ValveState.active, .suspect, .probation 5, .blocked .quality, .blocked .supervisor],
      (withValve23 st).control.state ≠ .config ∧ 1 ≤ (23 : Byte).toNat ∧
      (23 : Byte).toNat ≤ (withValve23 st).valveCount ∧ ((withValve23 st).valve (23 : Byte).toNat).state = st) :=
  ⟨fun _ f => awaits_of_idle f rfl rfl, line_awaits, line_tableWhole, rfl, by decide, by decide⟩

theorem witness_RecordsReadBackAsLoaded :
    (layoutBytes layout5).length = 17 ∧ (calibrationBytes cal5).length = 14 ∧
    lengthOk .recipeLoad (recipeBytes recipe5 true) = true ∧ recipeFlagsValid (recipeBytes recipe5 true) = true ∧
    layoutOf (layoutBytes layout5) = layout5 ∧ recipeOfPayload (recipeBytes recipe5 true) = recipe5 := by decide

theorem witness_LayoutLoadInstalls :
    (∀ op f, (lineIn op).awaits f) ∧ (∀ op, (lineIn op).tableWhole) ∧
    ((layoutBytes layout5).length = 17 ∧ layoutOf (layoutBytes layout5) = layout5 ∧
      (lineIn .ready).control.state = .ready ∧ (lineIn .run).control.state = .run ∧
      layoutOf (layoutBytes { layout5 with readerWindow := 480 }) = { layout5 with readerWindow := 480 } ∧
      { layout5 with valveCount := 25 }.valveCount ≠ (lineIn .ready).valveCount ∧ (lineIn .ready).frozen = false) ∧
    frozenLine.frozen = true :=
  ⟨line_awaits, line_tableWhole, by decide, by decide⟩

theorem witness_CalLoadInstalls :
    (∀ op f, (lineIn op).awaits f) ∧
    ((calibrationBytes cal5).length = 14 ∧ calibrationOf (calibrationBytes cal5) = cal5 ∧
      (lineIn .ready).weigh.capture.outcome ≠ .inProgress ∧
      capturing.weigh.capture.outcome = .inProgress ∧
      calibrationOf (calibrationBytes { cal5 with periodSetting := 17 }) = { cal5 with periodSetting := 17 }) :=
  ⟨line_awaits, by decide⟩

theorem witness_RecipeLoadInstalls :
    (∀ op f, (lineIn op).awaits f) ∧ (∀ op f, (twoRecipes op).awaits f) ∧ (twoRecipes .ready).generationsAgree ∧
    (∀ op, (lineIn op).tableWhole) ∧ (twoRecipes .ready).tableWhole ∧
    (lengthOk .recipeLoad (recipeBytes recipe5 true) = true ∧ recipeOfPayload (recipeBytes recipe5 true) = recipe5 ∧
      (recipeBytes recipe5 true).getD 30 0 = 1 ∧ (recipeBytes recipe5 true).getD 31 0 = 1 ∧
      recipeValid recipe5 = true ∧ recipeValid { recipe5 with doseMin := 48001 } = false ∧
      State.reset.control.state = .config ∧ State.reset.store.layout = none ∧ (twoRecipes .run).control.state = .run ∧
      (twoRecipes .run).store.previous ≠ none ∧ (withRecord 10398 .filled).store.previous = none ∧
      (lineIn .ready).store.previous = none ∧ (twoRecipes .ready).store.previous ≠ none ∧
      (twoRecipes .ready).canList.ring.length ≤ 256 ∧
      (twoRecipes .ready).canList.unread ≤ (twoRecipes .ready).canList.ring.length) :=
  ⟨line_awaits, fun _ f => awaits_of_idle f rfl rfl, two_generationsAgree, line_tableWhole, ⟨rfl, by decide⟩, by decide⟩

theorem witness_StartStopClear :
    (∀ op f, (lineIn op).awaits f) ∧ (∀ f, onPlatform.awaits f) ∧
    ((lineIn .ready).control.state = .ready ∧ (lineIn .ready).weigh.cellFault = false ∧
      (lineIn .ready).weigh.capture.outcome ≠ .inProgress ∧ (lineIn .halt).control.state = .halt ∧
      onPlatform.control.state = .run ∧ onPlatform.weigh.platform = .dwell weighing812 ∧
      weighing812.binding = some 812 ∧ onPlatform.tracking.queue = [] ++ { record812 with stage := .onPlatform } :: [] ∧
      (commandOf 1 .halt).control.decoder = .space 1 ∧ ms 40 ≤ (commandOf 1 .halt).spell) ∧
    (∀ f, (dwellAt 10409 .read).awaits f) ∧
    ((dwellAt 10409 .read).control.state = .run ∧ (dwellAt 10409 .read).weigh.platform = .dwell weighing812 ∧
      ∀ c ∈ (dwellAt 10409 .read).tracking.queue, ¬(c.serial = 812 ∧ c.stage = .onPlatform)) :=
  ⟨line_awaits, fun f => awaits_of_idle f rfl rfl, by decide, fun f => awaits_of_idle f rfl rfl, by decide⟩

theorem witness_RestartKeepsSettings :
    (withRecord 10398 .filled).awaits ⟨.supervisor, Kind.restart.code, [], none⟩ ∧
      (withRecord 10398 .filled).generationsAgree ∧ (withRecord 10398 .filled).canList.ring.length ≤ 256 ∧
      (withRecord 10398 .filled).canList.unread ≤ (withRecord 10398 .filled).canList.ring.length ∧
      (∀ f, capturing.awaits f) ∧ capturing.weigh.capture.outcome = .inProgress :=
  ⟨awaits_of_idle _ rfl rfl, record_generationsAgree, by decide, by decide, fun f => awaits_of_idle f rfl rfl, by decide⟩

/-- The decoder in a state after a spell of so many ticks, the input high or low. -/
def decoding (d : LineDecoder) (high : Bool) (ticks : Nat) : State :=
  { lineIn .run with
    now := ticks, pins := { State.reset.pins with lcmdHigh := high },
    control := { (lineIn .run).control with decoder := d } }

/-- The bounds of R178: 5, 10, 15, 20, 40 and 60 ms. -/
theorem witness_LineDecoderActs :
    (∀ x ∈ [(LineDecoder.gap, 10), (.gap, 9), (.space 7, 5), (.space 7, 15), (.space 8, 15), (.space 1, 16), (.recover, 39)],
      let s := decoding x.1 true (ms x.2);
      s.resetHeld = false ∧ s.pins.lcmdHigh = true ∧ s.control.decoder = x.1 ∧ s.spell = ms x.2 ∧ s.spell < ms 40) ∧
    (∀ x ∈ [(LineDecoder.lead, 20), (.lead, 60), (.lead, 19), (.pulse 0, 5), (.pulse 0, 15), (.pulse 0, 4), (.lead, 61),
        (.pulse 0, 16), (.recover, 1)],
      let s := decoding x.1 false (ms x.2);
      s.resetHeld = false ∧ s.pins.lcmdHigh = false ∧ s.control.decoder = x.1 ∧ s.spell = ms x.2) ∧
    (ms 40 ≤ (decoding .recover true (ms 40)).spell ∧ (decoding (.space 6) true (ms 40)).control.decoder = .space 6 ∧
      (decoding .gap true (ms 40)).control.decoder = .gap) := by decide

theorem witness_CauseRequests :
    (∀ f, (lineIn .run).awaits f) ∧
    (((lineIn .run).att .quality).pending = { cause := .powerUp, detail := 0 } :: [] ∧
      { (lineIn .run).att .quality with pending := [] }.pending = [] ∧ 32 ≤ (32 : Byte).toNat ∧ (31 : Byte).toNat < 32) ∧
    ((lineIn .run).att .quality).ordered :=
  ⟨line_awaits _, by decide, by unfold Attention.ordered; decide⟩

/-- The ends of the ranges of the fields. -/
theorem witness_AnswerLayouts :
    u16 65535 = [0xFF, 0xFF] ∧ u24 0x123456 = [0x12, 0x34, 0x56] ∧ s16 (-32768) = [0x80, 0x00] ∧
    s24 (-8388608) = [0x80, 0x00, 0x00] ∧ s32 (-1) = [0xFF, 0xFF, 0xFF, 0xFF] ∧
    maskOf Reason.inOrder [.halted, .probation] = 2049 := by decide

end Sys2Proof.Tests
end

/-! The arithmetic of the manual: what rounding, clamping, limiting and the difference of positions give (R2, R5). -/

namespace Sys2Proof.Machine

/-! ## Rounding (R2) -/

/-- What rounding half up leaves over lies in the half-open interval from −b/2 to b/2: at −b/2 the tie went up. -/
theorem roundHalfUp_remainder (a : Int) {b : Nat} (hb : 0 < b) :
    -(b : Int) ≤ 2 * (a - b * roundHalfUp a b) ∧ 2 * (a - b * roundHalfUp a b) < b := by
  have upper : 2 * (b : Int) * roundHalfUp a b ≤ 2 * a + b := Int.mul_ediv_self_le (by omega)
  have lower : 2 * a + b < 2 * (b : Int) * roundHalfUp a b + 2 * b := Int.lt_mul_ediv_self_add (by omega)
  rw [mul_assoc] at upper lower
  omega

theorem roundAway_of_nonneg {a : Int} (b : Nat) (ha : 0 ≤ a) : roundAway a b = roundHalfUp a b := if_pos ha

theorem roundAway_of_neg {a : Int} (b : Nat) (ha : a < 0) : roundAway a b = -roundHalfUp (-a) b := if_neg (by omega)

/-- Rounding gives a nearest integer, and at a tie the product exceeds the dividend in size, so the tie went away from zero. A
value below 0 is rounded half up in size, with its sign put back. -/
theorem roundAway_nearest (a : Int) {b : Nat} (hb : 0 < b) :
    2 * (a - b * roundAway a b).natAbs ≤ b ∧
      (2 * (a - b * roundAway a b).natAbs = b → a.natAbs < (b * roundAway a b).natAbs) := by
  rcases lt_or_ge a 0 with neg | nonneg
  · have remainder := roundHalfUp_remainder (-a) hb
    rw [roundAway_of_neg b neg, mul_neg]
    omega
  · have remainder := roundHalfUp_remainder a hb
    rw [roundAway_of_nonneg b nonneg]
    omega

/-! ## Clamping and limiting (R2) -/

theorem clamp_of_lt {lo hi x : Int} (below : x < lo) : clamp lo hi x = lo := if_pos below

theorem clamp_of_gt {lo hi x : Int} (h : lo ≤ hi) (above : hi < x) : clamp lo hi x = hi := by
  unfold clamp; rw [if_neg (by omega), if_pos above]

theorem limitTo_bounds (m : Nat) (x : Int) : -(m : Int) ≤ limitTo m x ∧ limitTo m x ≤ m :=
  clamp_bounds x (by omega)

theorem limitTo_of_natAbs_le {m : Nat} {x : Int} (h : x.natAbs ≤ m) : limitTo m x = x :=
  clamp_of_mem (by omega) (by omega)

/-! ## The difference of two positions (R5) -/

theorem posDiff_bounds (a b : Position) : -8388608 ≤ posDiff a b ∧ posDiff a b ≤ 8388607 :=
  ⟨BitVec.le_toInt (a - b), Int.le_of_lt_add_one (BitVec.toInt_lt (x := a - b))⟩

/-- The signed difference is the balanced residue, modulo 16,777,216, of the difference of the two counts. -/
theorem posDiff_eq_bmod (a b : Position) : posDiff a b = ((a.toNat : Int) - b.toNat).bmod 16777216 := by
  have signed : posDiff a b = (a.toInt - b.toInt).bmod 16777216 := BitVec.toInt_sub
  rw [signed, a.toInt_eq_toNat_bmod, b.toInt_eq_toNat_bmod, Int.bmod_sub_bmod, Int.sub_bmod_bmod]

theorem posDiff_congr (a b : Position) : (posDiff a b - ((a.toNat : Int) - b.toNat)) % 16777216 = 0 := by
  rw [posDiff_eq_bmod]
  exact Int.emod_eq_zero_of_dvd Int.dvd_bmod_sub_self

theorem posDiff_eq_zero_iff (a b : Position) : posDiff a b = 0 ↔ a = b :=
  calc posDiff a b = 0
    _ ↔ a - b = 0 := BitVec.toInt_inj (y := 0#24)
    _ ↔ a = b := sub_eq_zero

/-! ## The obligation -/

/-- Settles O26: the nearest integer with its tie, the bounds of the clamp and the limit, and the balanced residue of a difference
of positions are the lemmas above; the figures of R2 and R5 are evaluated. -/
theorem arithmeticOfTheManual : Obligations.ArithmeticOfTheManual :=
  ⟨⟨fun a _ hb => roundAway_nearest a hb,
    fun _ b _ ha => (roundAway_of_nonneg b ha).symm,
    fun _ _ _ h => ⟨clamp_of_lt, clamp_of_gt h, clamp_of_mem⟩,
    fun m x => ⟨(limitTo_bounds m x).1, (limitTo_bounds m x).2, limitTo_of_natAbs_le⟩,
    by decide, by decide⟩,
   ⟨fun a b => ⟨(posDiff_bounds a b).1, (posDiff_bounds a b).2, posDiff_congr a b, posDiff_eq_zero_iff a b⟩,
    fun _ _ => rfl,
    by decide, by decide, by decide⟩⟩

end Sys2Proof.Machine

/-! The lid code: when a code agrees with the pattern of its recipe, and the code status that gives (R76, R77). -/

namespace Sys2Proof.Machine

/-! ## One character (R77) -/

theorem printable_iff (c : Byte) : printable c = true ↔ 0x20 ≤ c.toNat ∧ c.toNat ≤ 0x7E := decide_eq_true_iff

theorem agrees_question_iff {p : Byte} (c : Byte) (question : p = 0x3F) :
    agrees p c = true ↔ 0x20 ≤ c.toNat ∧ c.toNat ≤ 0x7E := by
  unfold agrees
  rw [if_pos question, printable_iff]

theorem agrees_hash_iff {p : Byte} (c : Byte) (hash : p = 0x23) :
    agrees p c = true ↔ 0x30 ≤ c.toNat ∧ c.toNat ≤ 0x39 := by
  subst hash
  exact decide_eq_true_iff

theorem agrees_literal_iff {p : Byte} (c : Byte) (question : p ≠ 0x3F) (hash : p ≠ 0x23) :
    agrees p c = true ↔ c = p := by
  unfold agrees
  rw [if_neg question, if_neg hash, beq_iff_eq, eq_comm]

/-- A pattern character is of exactly one of the three kinds, so the condition of its own kind is the only one that binds. -/
theorem agrees_iff (p c : Byte) : agrees p c = true ↔
    (p = 0x3F → 0x20 ≤ c.toNat ∧ c.toNat ≤ 0x7E) ∧
    (p = 0x23 → 0x30 ≤ c.toNat ∧ c.toNat ≤ 0x39) ∧
    (p ≠ 0x3F → p ≠ 0x23 → c = p) := by
  by_cases question : p = 0x3F
  · have hash : p ≠ 0x23 := by rw [question]; decide
    rw [agrees_question_iff c question]
    tauto
  · by_cases hash : p = 0x23
    · rw [agrees_hash_iff c hash]
      tauto
    · rw [agrees_literal_iff c question hash]
      tauto

/-! ## The whole code (R76, R77) -/

/-- Matching walks the pattern and the code together, and fails where one ends before the other. -/
theorem codeMatches_iff_forall₂ (q t : List Byte) :
    codeMatches q t = true ↔ List.Forall₂ (fun p c => agrees p c = true) q t := by
  induction q generalizing t with
  | nil => cases t <;> simp [codeMatches]
  | cons p ps ih =>
    cases t with
    | nil => simp [codeMatches]
    | cons c cs => rw [codeMatches, Bool.and_eq_true, ih, List.forall₂_cons]

theorem codeOf_pattern (q : List Byte) {t : List Byte} (code : t ≠ [0x3F]) :
    codeOf (some q) (some t) = (some t, if codeMatches q t = true then .matched else .mismatch) := if_neg code

/-! ## The obligation -/

/-- Settles O40: two lists are related place by place exactly when they are of one length and related at every index, and the
relation at an index is the agreement of one character. -/
theorem codeMatchesPattern : Obligations.CodeMatchesPattern := by
  refine ⟨fun q t => ?_, fun q _ code => codeOf_pattern q code⟩
  rw [codeMatches_iff_forall₂, List.forall₂_iff_get]
  simp only [List.get_eq_getElem, agrees_iff]

end Sys2Proof.Machine

/-! The verdict of a record, what drives the gate, and what a hand-over does with both (R84 to R87, R91). -/

namespace Sys2Proof.Machine

/-! ## The order of the reasons (R85) -/

/-- The reason of a rank stands at its place in the verdict order. -/
theorem Reason.getElem?_inOrder_rank (r : Reason) : Reason.inOrder[r.rank - 1]? = some r := by cases r <;> rfl

theorem Reason.mem_inOrder (r : Reason) : r ∈ Reason.inOrder := List.mem_of_getElem? (Reason.getElem?_inOrder_rank r)

theorem Reason.rank_injective : Function.Injective Reason.rank := by
  intro r q same
  have place := Reason.getElem?_inOrder_rank r
  rw [same, Reason.getElem?_inOrder_rank q] at place
  exact (Option.some.inj place).symm

theorem Reason.inOrder_ascending : Reason.inOrder.Pairwise (fun r q => r.rank < q.rank) := by decide

/-! ## The verdict (R85) -/

theorem verdictOf_eq_accept_iff (rs : List Reason) : verdictOf rs = .accept ↔ rs = [] := by
  unfold verdictOf
  split
  · next r found =>
    have present : r ∈ rs := by simpa using List.find?_some found
    exact iff_of_false nofun (List.ne_nil_of_mem present)
  · next missing => simpa [Reason.mem_inOrder, List.eq_nil_iff_forall_not_mem] using missing

theorem verdictOf_eq_reason_iff_find? (rs : List Reason) (r : Reason) :
    verdictOf rs = .reason r ↔ Reason.inOrder.find? (fun q => decide (q ∈ rs)) = some r := by
  unfold verdictOf
  split
  · next found => simp [found]
  · next missing => simp [missing]

/-- The search stops at a reason present, and a reason present before it in the order would have stopped it there. -/
theorem highest_of_verdictOf_eq_reason {rs : List Reason} {r : Reason} (verdict : verdictOf rs = .reason r) :
    r ∈ rs ∧ ∀ q ∈ rs, r.rank ≤ q.rank := by
  obtain ⟨present, before, behind, placed, absent⟩ :=
    List.find?_eq_some_iff_append.mp ((verdictOf_eq_reason_iff_find? rs r).mp verdict)
  refine ⟨of_decide_eq_true present, fun q hq => ?_⟩
  have ascending := Reason.inOrder_ascending
  have place := Reason.mem_inOrder q
  rw [placed] at ascending place
  rcases List.mem_append.mp place with ahead | here
  · exact absurd hq (by simpa using absent q ahead)
  · rcases List.mem_cons.mp here with rfl | later
    · exact le_rfl
    · exact (List.rel_of_pairwise_cons (List.pairwise_append.mp ascending).2.1 later).le

/-- No two reasons share a rank, so the highest reason present is the one the search finds. -/
theorem verdictOf_eq_reason_iff (rs : List Reason) (r : Reason) :
    verdictOf rs = .reason r ↔ r ∈ rs ∧ ∀ q ∈ rs, r.rank ≤ q.rank := by
  refine ⟨highest_of_verdictOf_eq_reason, fun ⟨present, highest⟩ => ?_⟩
  cases verdict : verdictOf rs with
  | accept => simp [(verdictOf_eq_accept_iff rs).mp verdict] at present
  | flushed => unfold verdictOf at verdict; split at verdict <;> cases verdict
  | reason q =>
    obtain ⟨present', highest'⟩ := highest_of_verdictOf_eq_reason verdict
    rw [Reason.rank_injective (Nat.le_antisymm (highest q present') (highest' r present))]

theorem Verdict.drives_iff (v : Verdict) : v.drives = true ↔ ∃ r, v = .reason r ∧ r ≠ .missed := by
  cases v <;> simp [Verdict.drives]

/-! ## The reject drive (R87) -/

/-- A window that closes as unconfirmed leaves the reject drive. -/
theorem unconfirmedClose_drive (n : Serial) (s : State) : (unconfirmedClose n s).gate.drive = s.gate.drive := by
  unfold unconfirmedClose
  simp only []
  split
  · obtain ⟨_, _, e⟩ := haltReason_frame .rejectFault n.toNat
      (closePending n true { s with gate := { s.gate with unconfirmed := satInc 255 s.gate.unconfirmed } })
    rw [e]; rfl
  · rfl

theorem makeWindowRoom_drive (s : State) : (makeWindowRoom s).gate.drive = s.gate.drive := by
  unfold makeWindowRoom
  split
  · rfl
  · split
    · exact unconfirmedClose_drive _ _
    · rfl

theorem openWindow_drive (L : Layout) (n : Serial) (s : State) : (openWindow L n s).gate.drive = s.gate.drive := by
  rw [← makeWindowRoom_drive s]
  unfold openWindow
  simp only []
  split <;> rfl

theorem driveFor_drive (L : Layout) (n : Serial) (drives : Bool) (s : State) :
    (driveFor L n drives s).gate.drive = if drives then some (s.now + ms L.gatePulse) else s.gate.drive := by
  cases drives with
  | true => exact openWindow_drive L n (startDrive L s)
  | false => rfl

/-! ## The newest summary (R94) -/

theorem append_newest (l : CanList) (m : CanSummary) : (l.append m).ring.getLast? = some m := by
  unfold CanList.append
  split
  · exact List.getLast?_concat
  · split <;> exact List.getLast?_concat

theorem appendSummary_newest (m : CanSummary) (s : State) : (appendSummary m s).canList.ring.getLast? = some m := by
  rw [← append_newest s.canList m]
  unfold appendSummary
  simp only []
  split <;> rfl

/-! ## The hand-over (R84, R86) -/

/-- The record whose verdict is decided: the gate's own reasons have joined (R84). -/
def recordAtGate (c : CanRecord) (s : State) : CanRecord := c.withReasons (gateReasons s.control.state c.stage)

theorem mem_gateReasons (op : OpState) (stage : Stage) (r : Reason) :
    r ∈ gateReasons op stage ↔
      (r = .undecided ∧ (stage = .onPlatform ∨ stage = .weighed)) ∨ (r = .halted ∧ op = .halt ∧ stage ≠ .missed) := by
  simp only [gateReasons, List.mem_append, List.mem_ite_nil_right, List.mem_singleton]
  tauto

theorem mem_recordAtGate_reasons (c : CanRecord) (s : State) (r : Reason) :
    r ∈ (recordAtGate c s).reasons ↔ r ∈ c.reasons ∨ (r = .undecided ∧ (c.stage = .onPlatform ∨ c.stage = .weighed)) ∨
      (r = .halted ∧ s.control.state = .halt ∧ c.stage ≠ .missed) := by
  rw [recordAtGate, mem_withReasons, mem_gateReasons]

/-- The counts of the valve and the departure from the store come after the drive and the append, and leave both their results. -/
theorem handOver_gate_canList (L : Layout) (c : CanRecord) (s : State) :
    let d := recordAtGate c s
    let v := verdictOf d.reasons
    let driven := driveFor L c.serial v.drives s
    let m := summaryOf d v (v.drives && !driven.gate.confirmLevel)
    (handOver L c s).gate = driven.gate ∧ (handOver L c s).canList = (appendSummary m driven).canList := by
  intro d v driven m
  obtain ⟨_, _, append⟩ := appendSummary_frame m driven
  obtain ⟨_, counts⟩ := countHandOver_frame d v.drives (appendSummary m driven)
  obtain ⟨_, _, depart⟩ := departed_frame c.generation (countHandOver d v.drives (appendSummary m driven))
  have result : handOver L c s = departed c.generation (countHandOver d v.drives (appendSummary m driven)) := rfl
  rw [result, depart, counts]
  exact ⟨by rw [append], rfl⟩

theorem handOver_drive (L : Layout) (c : CanRecord) (s : State) :
    (handOver L c s).gate.drive =
      if (verdictOf (recordAtGate c s).reasons).drives then some (s.now + ms L.gatePulse) else s.gate.drive := by
  rw [(handOver_gate_canList L c s).1, driveFor_drive]

theorem handOver_newest_verdict (L : Layout) (c : CanRecord) (s : State) :
    (handOver L c s).canList.ring.getLast?.map CanSummary.verdict = some (verdictOf (recordAtGate c s).reasons) := by
  rw [(handOver_gate_canList L c s).2, appendSummary_newest]
  rfl

/-! ## The obligation -/

/-- Settles O42: the verdict order is strictly ascending in rank and holds every reason, so the first reason found in it is the
highest; the reasons at the gate are those of the record as it is handed over. -/
theorem verdictIsHighestReason : Obligations.VerdictIsHighestReason :=
  ⟨rfl, fun rs => ⟨verdictOf_eq_accept_iff rs, verdictOf_eq_reason_iff rs⟩, Verdict.drives_iff, fun L c s =>
    ⟨(recordAtGate c s).reasons, mem_recordAtGate_reasons c s, handOver_newest_verdict L c s,
      fun still => by rw [handOver_drive, still]; rfl,
      fun drives => by rw [handOver_drive, if_pos drives]⟩⟩

end Sys2Proof.Machine

/-! The dose unit: the trim and the dose served (R99, R101), DOSE QUERY and BASE SET (R104, R119), and the freeze sources (R121,
R122). -/

namespace Sys2Proof.Machine

/-! ## The clamp (R2) -/

theorem clamp_eq_max_min {lo hi : Int} (x : Int) (h : lo ≤ hi) : clamp lo hi x = max lo (min hi x) := by
  unfold clamp
  split
  · omega
  · split <;> omega

theorem limitTo_eq_max_min {m : Int} (x : Int) (h : 0 ≤ m) : limitTo m x = max (-m) (min m x) :=
  clamp_eq_max_min x (by omega)

/-! ## The trim (R99) -/

/-- The trim is the quotient rounded half up: a tie is taken to the larger integer. -/
theorem trimOf_bounds (a : Int) (k : Nat) :
    (2 * trimOf a k - 1) * 2 ^ k ≤ 2 * a ∧ 2 * a < (2 * trimOf a k + 1) * 2 ^ k := by
  have remainder := roundHalfUp_remainder a (b := 2 ^ k) (by positivity)
  push_cast at remainder
  unfold trimOf
  constructor <;> linarith

theorem le_trimOf {a m : Int} {k : Nat} (h : m * 2 ^ k ≤ a) : m ≤ trimOf a k := by
  have below : 2 * m * 2 ^ k < (2 * trimOf a k + 1) * 2 ^ k := by linarith [(trimOf_bounds a k).2]
  have := lt_of_mul_lt_mul_right below (by positivity)
  omega

theorem trimOf_le {a m : Int} {k : Nat} (h : a ≤ m * 2 ^ k) : trimOf a k ≤ m := by
  have above : (2 * trimOf a k - 1) * 2 ^ k ≤ 2 * m * 2 ^ k := by linarith [(trimOf_bounds a k).1]
  have := le_of_mul_le_mul_right above (by positivity)
  omega

/-- Rounding half up commutes with whole steps, which is why a centering step moves every trim by exactly its move (R118). -/
theorem trimOf_sub_mul (a c : Int) (k : Nat) : trimOf (a - c * 2 ^ k) k = trimOf a k - c := by
  unfold trimOf roundHalfUp
  rw [← Int.sub_mul_ediv_right _ c (by positivity)]
  congr 1
  push_cast
  ring

/-! ## The dose served (R101) -/

theorem doseOf_of_unused (s : State) {e : Valve} (h : e.state = .unused) : s.doseOf e = 0 := by
  unfold State.doseOf
  rw [h]

theorem doseOf_of_blocked (s : State) {e : Valve} {l : Link} (h : e.state = .blocked l) : s.doseOf e = 0 := by
  unfold State.doseOf
  rw [h]

theorem doseOf_in_service {s : State} {r : Recipe} {e : Valve} (recipe : s.recipe = some r) (used : e.state ≠ .unused)
    (free : ∀ l, e.state ≠ .blocked l) :
    s.doseOf e = (clamp r.doseMin r.doseMax (doseSum r s.dose.lineOffset e)).toNat := by
  unfold State.doseOf
  split
  · next h => exact absurd h used
  · next l h => exact absurd h (free l)
  · rw [recipe]

theorem coe_doseOf_in_service {s : State} {r : Recipe} {e : Valve} (recipe : s.recipe = some r)
    (ordered : r.doseMin ≤ r.doseMax) (used : e.state ≠ .unused) (free : ∀ l, e.state ≠ .blocked l) :
    (s.doseOf e : Int) = max (r.doseMin : Int) (min r.doseMax (doseSum r s.dose.lineOffset e)) := by
  rw [doseOf_in_service recipe used free, clamp_eq_max_min _ (by omega)]
  omega

/-- The dose stands on the state of the entry, the recipe in place and the sum alone. -/
theorem doseOf_eq_of_doseSum_eq {s t : State} {e f : Valve} (recipe : t.recipe = s.recipe) (state : f.state = e.state)
    (sum : ∀ r, s.recipe = some r → doseSum r t.dose.lineOffset f = doseSum r s.dose.lineOffset e) :
    t.doseOf f = s.doseOf e := by
  unfold State.doseOf
  rw [state, recipe]
  cases present : s.recipe with
  | none => rfl
  | some r => simp only [sum r present]

theorem doseOf_congr {s t : State} (e : Valve) (recipe : t.recipe = s.recipe)
    (offset : t.dose.lineOffset = s.dose.lineOffset) : t.doseOf e = s.doseOf e :=
  doseOf_eq_of_doseSum_eq recipe rfl (fun _ _ => by rw [offset])

/-- Settles O46: the trim is the quotient rounded half up, and the dose in service is the clamped sum. -/
theorem doseServed : Obligations.DoseServed := by
  refine ⟨fun a k => ⟨(trimOf_bounds a k).1, (trimOf_bounds a k).2, fun m low high => ⟨?_, trimOf_le high⟩⟩, by decide,
    fun r e s recipe ordered => ⟨doseOf_of_unused s, fun _ => doseOf_of_blocked s, fun used free => ?_⟩⟩
  · exact le_trimOf (by rwa [neg_mul])
  · have dose := coe_doseOf_in_service recipe ordered used free
    refine ⟨dose, ?_, ?_, ?_, ?_⟩ <;> omega

/-! ## One entry of the valve table -/

theorem valve_setValve_same (s : State) {v : Nat} (e : Valve) (first : 1 ≤ v) (last : v ≤ s.dose.valves.length) :
    (s.setValve v e).valve v = e := by
  simp [State.valve, List.getD_eq_getElem?_getD, show v - 1 < s.dose.valves.length by omega]

theorem valve_setValve_other (s : State) {u v : Nat} (e : Valve) (hu : 1 ≤ u) (hv : 1 ≤ v) (other : u ≠ v) :
    (s.setValve v e).valve u = s.valve u := by
  simp [State.valve, List.getD_eq_getElem?_getD, List.getElem?_set_ne (show v - 1 ≠ u - 1 by omega)]

/-- A change of one entry leaves the dose of every entry that is not changed, since it leaves the recipe and the line offset. -/
theorem doseOf_setValve (s : State) (v : Nat) (e f : Valve) : (s.setValve v e).doseOf f = s.doseOf f :=
  doseOf_congr f rfl rfl

/-! ## Doses recorded as served (R103) -/

/-- The entry of a valve whose dose is given to the filler. -/
def Valve.served (s : State) (e : Valve) : Valve := { e with lastDose := s.doseOf e }

theorem serveDose_filler (v : Nat) (s : State) : serveDose .filler v s = s.setValve v (Valve.served s (s.valve v)) := rfl

theorem serveDoses_of_ne_filler {l : Link} (other : l ≠ .filler) (v n : Nat) (s : State) : serveDoses l v n s = s := by
  induction n with
  | zero => rfl
  | succ n ih => rw [serveDoses, ih, serveDose, if_neg other]

/-- Recording served doses changes the valve table alone, and not its length. -/
theorem serveDoses_valves_frame (l : Link) (v n : Nat) (s : State) :
    ∃ vs, vs.length = s.dose.valves.length ∧ serveDoses l v n s = { s with dose := { s.dose with valves := vs } } := by
  induction n with
  | zero => exact ⟨_, rfl, rfl⟩
  | succ n ih =>
    obtain ⟨vs, length, frame⟩ := ih
    rw [serveDoses, frame, serveDose]
    split
    · exact ⟨_, by rw [← length]; exact List.length_set, rfl⟩
    · exact ⟨vs, length, rfl⟩

theorem doseOf_serveDoses (l : Link) (v n : Nat) (s : State) (e : Valve) :
    (serveDoses l v n s).doseOf e = s.doseOf e := by
  obtain ⟨_, -, frame⟩ := serveDoses_valves_frame l v n s
  rw [frame]
  exact doseOf_congr e rfl rfl

theorem valve_serveDoses_filler {v n : Nat} {s : State} (first : 1 ≤ v) (last : v + n - 1 ≤ s.dose.valves.length) {u : Nat}
    (hu : 1 ≤ u) : (serveDoses .filler v n s).valve u =
      if v ≤ u ∧ u < v + n then Valve.served s (s.valve u) else s.valve u := by
  induction n with
  | zero => rw [if_neg (by omega)]; rfl
  | succ n ih =>
    have before := ih (by omega)
    obtain ⟨_, length, frame⟩ := serveDoses_valves_frame .filler v n s
    have size : (serveDoses .filler v n s).dose.valves.length = s.dose.valves.length := by rw [frame]; exact length
    rw [serveDoses, serveDose_filler]
    by_cases here : u = v + n
    · subst here
      rw [valve_setValve_same _ _ hu (by omega), before, if_neg (by omega), if_pos (by omega)]
      unfold Valve.served
      rw [doseOf_serveDoses]
    · rw [valve_setValve_other _ _ hu (by omega) here, before]
      congr 1
      exact propext (by omega)

/-! ## Requests that a decoder takes (R195, R196) -/

theorem next_serve_of_awaits {k : Kind} {l : Link} {p : List Byte} {st : Option Position} {s : State} (own : State → Served)
    (awaits : s.awaits ⟨l, k.code, p, st⟩) (link : permitted k l = true) (length : lengthOk k p = true) :
    (.next (serve k l p st own s) : Result) = .next (answer l k.code (own s).1 (own s).2) :=
  congrArg Host.Outcome.next (serve_own own awaits.1 awaits.2 link length)

theorem next_serve_of_not_permitted {k : Kind} {l : Link} {p : List Byte} {st : Option Position} {s : State}
    (own : State → Served) (awaits : s.awaits ⟨l, k.code, p, st⟩) (link : permitted k l = false) :
    (.next (serve k l p st own s) : Result) = .next (answer l k.code (.refused .link) s) := by
  obtain ⟨released, admits⟩ := awaits
  simp only at admits
  simp [serve, released, admits, link, Reply.refused]

/-! ## DOSE QUERY (R104) -/

@[simp] theorem u8_toNat (b : Byte) : u8 b.toNat = [b] := by simp [u8]

section
variable {l : Link} {v n : Byte} {s : State}

theorem ownDoseQuery_of_config (config : s.control.state = .config) : ownDoseQuery l [v, n] s = refuse .state s :=
  if_pos config

theorem ownDoseQuery_of_range (settled : s.control.state ≠ .config)
    (outside : n.toNat < 1 ∨ 16 < n.toNat ∨ v.toNat < 1 ∨ s.valveCount < v.toNat + n.toNat - 1) :
    ownDoseQuery l [v, n] s = refuse .range s :=
  (if_neg settled).trans (if_pos outside)

theorem ownDoseQuery_of_served (settled : s.control.state ≠ .config)
    (inside : ¬(n.toNat < 1 ∨ 16 < n.toNat ∨ v.toNat < 1 ∨ s.valveCount < v.toNat + n.toNat - 1)) :
    ownDoseQuery l [v, n] s =
      (.ok (u8 v.toNat ++ u8 n.toNat ++ (List.range n.toNat).flatMap (fun i => doseAndState s (v.toNat + i))),
        serveDoses l v.toNat n.toNat s) :=
  (if_neg settled).trans (if_neg inside)

theorem exec_doseQuery (awaits : s.awaits ⟨l, Kind.doseQuery.code, [v, n], none⟩) :
    exec (.doseQuery l [v, n]) s =
      .next (answer l 0x02 (ownDoseQuery l [v, n] s).1 (ownDoseQuery l [v, n] s).2) :=
  next_serve_of_awaits _ awaits rfl rfl

end

/-! ## BASE SET (R119) -/

/-- A field of two bytes in two's complement. -/
theorem s16At_second (v b1 b0 : Byte) :
    s16At [v, b1, b0] 1 = (b1.toNat * 256 + b0.toNat : Nat) - (if 128 ≤ b1.toNat then 65536 else 0) := by
  have high := b1.isLt
  have low := b0.isLt
  have field : s16At [v, b1, b0] 1 = ((b1.toNat * 256 + b0.toNat : Nat) : Int).bmod (2 ^ 16) := BitVec.toInt_ofNat ..
  rw [field, Int.bmod_def]
  split <;> split <;> omega

/-- The entry of a valve whose base offset is set to a value. -/
def Valve.withBase (e : Valve) (value : Int) : Valve := { e with baseOffset := max (-8191) (min 8191 value) }

section
variable {v b1 b0 : Byte} {s : State}

theorem ownBaseSet_of_config (config : s.control.state = .config) : ownBaseSet [v, b1, b0] s = refuse .state s :=
  if_pos config

theorem ownBaseSet_of_range (settled : s.control.state ≠ .config) (outside : v.toNat < 1 ∨ s.valveCount < v.toNat) :
    ownBaseSet [v, b1, b0] s = refuse .range s := by
  have range : s.valveInRange v.toNat = false := decide_eq_false (by omega)
  exact (if_neg settled).trans (if_pos (by simpa [u8At] using range))

theorem ownBaseSet_of_served (settled : s.control.state ≠ .config) (whole : s.tableWhole) (first : 1 ≤ v.toNat)
    (last : v.toNat ≤ s.valveCount) :
    let e := (s.valve v.toNat).withBase (s16At [v, b1, b0] 1)
    ownBaseSet [v, b1, b0] s =
      (.ok (u8 v.toNat ++ s16 e.baseOffset ++ (u16 (s.doseOf e) ++ u8 e.state.code)), s.setValve v.toNat e) := by
  intro e
  obtain ⟨length, count⟩ := whole
  have range : s.valveInRange v.toNat = true := decide_eq_true ⟨first, last⟩
  have limited : { s.valve v.toNat with baseOffset := limitTo 8191 (s16At [v, b1, b0] 1) } = e := by
    rw [limitTo_eq_max_min _ (by decide)]; rfl
  have entry : (s.setValve v.toNat e).valve v.toNat = e := valve_setValve_same s e first (by omega)
  have served : ownBaseSet [v, b1, b0] s =
      (.ok (u8 v.toNat ++ s16 ((s.setValve v.toNat e).valve v.toNat).baseOffset ++
        doseAndState (s.setValve v.toNat e) v.toNat), s.setValve v.toNat e) := by
    rw [← limited]
    exact (if_neg settled).trans (if_neg (by simpa [u8At] using range))
  rw [served, doseAndState, entry, doseOf_setValve]

theorem exec_baseSet (awaits : s.awaits ⟨.supervisor, Kind.baseSet.code, [v, b1, b0], none⟩) :
    exec (.baseSet .supervisor [v, b1, b0]) s =
      .next (answer .supervisor 0x06 (ownBaseSet [v, b1, b0] s).1 (ownBaseSet [v, b1, b0] s).2) :=
  next_serve_of_awaits _ awaits rfl rfl

end

/-- Settles O47: each request is answered by its owner, whose three ways out are the lemmas above. -/
theorem doseQueryAndBaseSet : Obligations.DoseQueryAndBaseSet := by
  refine ⟨fun l v n s awaits => ?_, fun v b1 b0 s awaits => ?_⟩
  · rw [exec_doseQuery awaits]
    refine ⟨fun config => by rw [ownDoseQuery_of_config config]; rfl,
      fun settled outside => by rw [ownDoseQuery_of_range settled outside]; rfl,
      fun settled low high first last => ⟨serveDoses l v.toNat n.toNat s, ?_⟩⟩
    rw [ownDoseQuery_of_served settled (by omega), u8_toNat, u8_toNat]
    obtain ⟨_, -, frame⟩ := serveDoses_valves_frame l v.toNat n.toNat s
    refine ⟨rfl, by rw [frame], fun other => serveDoses_of_ne_filler other .., by rw [frame], by rw [frame],
      by rw [frame], ?_⟩
    rintro ⟨length, count⟩ rfl u hu -
    exact valve_serveDoses_filler first (by omega) hu
  · rw [exec_baseSet awaits]
    refine ⟨fun config => by rw [ownBaseSet_of_config config]; rfl,
      fun settled outside => by rw [ownBaseSet_of_range settled outside]; rfl, fun settled whole first last => ?_⟩
    rw [ownBaseSet_of_served settled whole first last, s16At_second, u8_toNat, ← List.append_assoc]
    rfl

/-! ## Freeze sources (R121, R122) -/

section
variable {s : State}

/-- A command of `n` pulses ends once the high after its last pulse has lasted 40 ms (R178). -/
theorem commandEnd_of_space {n : Nat} (decoder : s.control.decoder = .space n) (long : ms 40 ≤ s.spell) :
    commandEnd s = some n := by
  unfold commandEnd
  rw [decoder]
  exact if_pos long

theorem endCommand_of_space {n : Nat} (act : State → State) (decoder : s.control.decoder = .space n)
    (long : ms 40 ≤ s.spell) : endCommand n act s = act (setDecoder .idle s) :=
  if_pos (commandEnd_of_space decoder long)

end

theorem freeze_kinds_not_permitted {l : Link} (other : l ≠ .supervisor) :
    permitted .freeze l = false ∧ permitted .thaw l = false ∧ permitted .thawAll l = false := by
  cases l with
  | supervisor => exact absurd rfl other
  | filler => exact ⟨rfl, rfl, rfl⟩
  | quality => exact ⟨rfl, rfl, rfl⟩

/-- Settles O50: the requests are answered by their owner on the supervisor link and with LINK on the others, and a line command
that ends is handed to the dose unit. -/
theorem freezeSources : Obligations.FreezeSources := by
  intro s
  refine ⟨fun awaits => next_serve_of_awaits _ awaits rfl rfl, fun awaits => next_serve_of_awaits _ awaits rfl rfl,
    fun awaits => next_serve_of_awaits _ awaits rfl rfl, fun l other => ?_, fun released decoder long => ?_,
    fun released decoder long => ?_⟩
  · obtain ⟨freeze, thaw, thawAll⟩ := freeze_kinds_not_permitted other
    exact ⟨fun awaits => next_serve_of_not_permitted _ awaits freeze,
      fun awaits => next_serve_of_not_permitted _ awaits thaw,
      fun awaits => next_serve_of_not_permitted _ awaits thawAll⟩
  · exact congrArg Host.Outcome.next
      ((unlessReset_of_released released).trans (endCommand_of_space handFreeze decoder long))
  · exact congrArg Host.Outcome.next
      ((unlessReset_of_released released).trans (endCommand_of_space handThaw decoder long))

end Sys2Proof.Machine

/-! The centering step: the moves it allows, the one it takes, and what that leaves as it was (R115 to R118). -/

namespace Sys2Proof.Machine

/-! ## The moves that R116 and R117 allow -/

theorem accLimit_nonneg (r : Recipe) : 0 ≤ accLimit r := by
  unfold accLimit
  positivity

/-- A move keeps the accumulator of an entry within A_lim (R116). -/
def keepsAccumulator (r : Recipe) (d : Int) (e : Valve) : Prop :=
  -accLimit r ≤ e.accumulator - d * 2 ^ r.shift ∧ e.accumulator - d * 2 ^ r.shift ≤ accLimit r

/-- A move keeps every accumulator within A_lim and the line offset within the line limit (R116, R117). -/
def allowedMove (r : Recipe) (lineOffset : Int) (vs : List Valve) (d : Int) : Prop :=
  (∀ e ∈ vs, keepsAccumulator r d e) ∧ -(r.lineLimit : Int) ≤ lineOffset + d ∧ lineOffset + d ≤ r.lineLimit

theorem ceilDiv_le_iff {a d : Int} {b : Nat} (hb : 0 < b) : ceilDiv a b ≤ d ↔ a ≤ d * b := by
  unfold ceilDiv
  rw [neg_le, Int.le_ediv_iff_mul_le (by omega), neg_mul, neg_le_neg_iff]

theorem moveLow_le_iff (r : Recipe) {vs : List Valve} (used : vs ≠ []) (d : Int) :
    moveLow r vs ≤ d ↔ ∀ e ∈ vs, e.accumulator - d * 2 ^ r.shift ≤ accLimit r := by
  obtain ⟨low, found⟩ := Option.isSome_iff_exists.mp
    (List.isSome_max?_of_ne_nil (l := vs.map (fun e => ceilDiv (e.accumulator - accLimit r) (2 ^ r.shift))) (by simpa using used))
  unfold moveLow
  rw [found, Option.getD_some, List.max?_le_iff found]
  simp only [List.forall_mem_map, ceilDiv_le_iff (Nat.two_pow_pos _)]
  push_cast
  exact forall₂_congr fun _ _ => by omega

theorem le_moveHigh_iff (r : Recipe) {vs : List Valve} (used : vs ≠ []) (d : Int) :
    d ≤ moveHigh r vs ↔ ∀ e ∈ vs, -accLimit r ≤ e.accumulator - d * 2 ^ r.shift := by
  obtain ⟨high, found⟩ := Option.isSome_iff_exists.mp
    (List.isSome_min?_of_ne_nil (l := vs.map (fun e => (e.accumulator + accLimit r) / 2 ^ r.shift)) (by simpa using used))
  unfold moveHigh
  rw [found, Option.getD_some, List.le_min?_iff found]
  simp only [List.forall_mem_map, Int.le_ediv_iff_mul_le (show (0 : Int) < 2 ^ r.shift by positivity)]
  exact forall₂_congr fun _ _ => by omega

/-- The moves allowed are those of the two intervals of R116 and R117. -/
theorem allowedMove_iff (r : Recipe) (lineOffset : Int) {vs : List Valve} (used : vs ≠ []) (d : Int) :
    allowedMove r lineOffset vs d ↔ (moveLow r vs ≤ d ∧ d ≤ moveHigh r vs) ∧
      -(r.lineLimit : Int) - lineOffset ≤ d ∧ d ≤ r.lineLimit - lineOffset := by
  rw [moveLow_le_iff r used, le_moveHigh_iff r used, ← forall₂_and, allowedMove]
  simp only [keepsAccumulator]
  constructor <;> rintro ⟨kept, low, high⟩ <;>
    exact ⟨fun e he => (kept e he).symm, by omega, by omega⟩

/-! ## The move taken (R115 to R117) -/

/-- The mean of the trims of the ACTIVE valves (R115). -/
def meanTrim (r : Recipe) (vs : List Valve) : Int := roundAway (activeTrims r vs).sum (activeTrims r vs).length

/-- A centering step makes a move: some valve is ACTIVE, and the mean reaches the threshold (R115). -/
def centers (r : Recipe) (vs : List Valve) : Prop := activeTrims r vs ≠ [] ∧ r.centerThreshold ≤ (meanTrim r vs).natAbs

theorem ne_nil_of_centers {r : Recipe} {vs : List Valve} (moves : centers r vs) : vs ≠ [] := by
  rintro rfl
  exact moves.1 rfl

/-- A clamp into an interval that holds 0 never passes 0 and never leaves a value behind. -/
theorem clamp_between {lo hi x : Int} (low : lo ≤ 0) (high : 0 ≤ hi) :
    (0 ≤ x → 0 ≤ clamp lo hi x ∧ clamp lo hi x ≤ x) ∧ (x ≤ 0 → x ≤ clamp lo hi x ∧ clamp lo hi x ≤ 0) := by
  rw [clamp_eq_max_min x (by omega)]
  omega

section
variable (r : Recipe) (lineOffset : Int) (vs : List Valve)

theorem centeringMove_of_not_centers (still : ¬centers r vs) : centeringMove r lineOffset vs = 0 := by
  unfold centeringMove
  simp only [List.isEmpty_iff]
  split
  · rfl
  · next active => exact if_pos (not_le.mp fun reached => still ⟨active, reached⟩)

theorem centeringMove_of_centers (moves : centers r vs) :
    centeringMove r lineOffset vs = clamp (-(r.lineLimit : Int) - lineOffset) (r.lineLimit - lineOffset)
      (clamp (moveLow r vs) (moveHigh r vs) (meanTrim r vs)) := by
  obtain ⟨active, reached⟩ := moves
  unfold centeringMove
  simp only [List.isEmpty_iff]
  rw [if_neg active]
  exact if_neg (not_lt.mpr reached)

variable {r lineOffset vs}

/-- Of the moves allowed the step takes the one nearest to the mean; the move of 0 is always among them. -/
theorem centeringMove_nearest (stay : allowedMove r lineOffset vs 0) (moves : centers r vs) {d : Int}
    (allowed : allowedMove r lineOffset vs d) :
    (meanTrim r vs - centeringMove r lineOffset vs).natAbs ≤ (meanTrim r vs - d).natAbs := by
  have used := ne_nil_of_centers moves
  obtain ⟨⟨low, high⟩, left, right⟩ := (allowedMove_iff r lineOffset used 0).mp stay
  obtain ⟨⟨low', high'⟩, left', right'⟩ := (allowedMove_iff r lineOffset used d).mp allowed
  rw [centeringMove_of_centers r lineOffset vs moves]
  exact (clamp_clamp_nearest low high left right low' high' left' right').1

theorem allowedMove_centeringMove (stay : allowedMove r lineOffset vs 0) :
    allowedMove r lineOffset vs (centeringMove r lineOffset vs) := by
  by_cases moves : centers r vs
  · have used := ne_nil_of_centers moves
    obtain ⟨⟨low, high⟩, left, right⟩ := (allowedMove_iff r lineOffset used 0).mp stay
    rw [centeringMove_of_centers r lineOffset vs moves, allowedMove_iff r lineOffset used]
    obtain ⟨-, low', high', left', right'⟩ :=
      clamp_clamp_nearest (m := meanTrim r vs) low high left right low high left right
    exact ⟨⟨low', high'⟩, left', right'⟩
  · rwa [centeringMove_of_not_centers r lineOffset vs moves]

theorem centeringMove_between (stay : allowedMove r lineOffset vs 0) :
    let c := centeringMove r lineOffset vs
    (0 ≤ meanTrim r vs → 0 ≤ c ∧ c ≤ meanTrim r vs) ∧ (meanTrim r vs ≤ 0 → meanTrim r vs ≤ c ∧ c ≤ 0) := by
  intro c
  by_cases moves : centers r vs
  · obtain ⟨⟨low, high⟩, left, right⟩ := (allowedMove_iff r lineOffset (ne_nil_of_centers moves) 0).mp stay
    have first := clamp_between (x := meanTrim r vs) low high
    have second := clamp_between (x := clamp (moveLow r vs) (moveHigh r vs) (meanTrim r vs)) left right
    rw [show c = _ from centeringMove_of_centers r lineOffset vs moves]
    omega
  · rw [show c = 0 from centeringMove_of_not_centers r lineOffset vs moves]
    omega

end

/-! ## What a move leaves as it was (R118) -/

/-- An entry after a move. -/
def Valve.moved (r : Recipe) (c : Int) (e : Valve) : Valve := { e with accumulator := e.accumulator - c * 2 ^ r.shift }

theorem trimOf_moved (r : Recipe) (c : Int) (e : Valve) :
    trimOf (e.moved r c).accumulator r.shift = trimOf e.accumulator r.shift - c := trimOf_sub_mul _ _ _

section
variable (r : Recipe) (c : Int) (s : State)

theorem applyMove_valves :
    (applyMove r c s).dose.valves = s.inUse.map (Valve.moved r c) ++ s.dose.valves.drop s.valveCount := rfl

variable {s} {v : Nat}

theorem valve_eq_of_inUse (whole : s.tableWhole) (first : 1 ≤ v) (last : v ≤ s.valveCount) :
    s.inUse[v - 1]? = some (s.valve v) := by
  obtain ⟨length, count⟩ := whole
  have place : v - 1 < s.dose.valves.length := by omega
  rw [State.inUse, List.getElem?_take_of_lt (by omega), State.valve, List.getD_eq_getElem _ _ place,
    List.getElem?_eq_getElem place]

theorem valve_applyMove_of_inUse (whole : s.tableWhole) (first : 1 ≤ v) (last : v ≤ s.valveCount) :
    (applyMove r c s).valve v = (s.valve v).moved r c := by
  have entry := valve_eq_of_inUse whole first last
  obtain ⟨place, -⟩ := List.getElem?_eq_some_iff.mp entry
  rw [State.valve, applyMove_valves, List.getD_eq_getElem?_getD, List.getElem?_append_left (by simpa using place),
    List.getElem?_map, entry]
  rfl

theorem valve_applyMove_of_unused (whole : s.tableWhole) (above : s.valveCount < v) :
    (applyMove r c s).valve v = s.valve v := by
  obtain ⟨length, count⟩ := whole
  have used : (s.inUse.map (Valve.moved r c)).length = s.valveCount := by simp [State.inUse]; omega
  rw [State.valve, applyMove_valves, List.getD_eq_getElem?_getD, List.getElem?_append_right (by omega), used,
    List.getElem?_drop, State.valve, List.getD_eq_getElem?_getD, show s.valveCount + (v - 1 - s.valveCount) = v - 1 by omega]

/-- What the line offset gains every trim in use loses, so the sum of R101 stays. -/
theorem doseOf_applyMove {r : Recipe} (recipe : s.recipe = some r) (e : Valve) :
    (applyMove r c s).doseOf (e.moved r c) = s.doseOf e := by
  refine doseOf_eq_of_doseSum_eq rfl rfl fun q held => ?_
  obtain rfl : r = q := Option.some.inj (recipe.symm.trans held)
  have trim := trimOf_moved r c e
  have offset : (applyMove r c s).dose.lineOffset = s.dose.lineOffset + c := rfl
  have base : (e.moved r c).baseOffset = e.baseOffset := rfl
  unfold doseSum
  rw [trim, offset, base]
  ring

/-- A dose unit within its bounds allows the move of 0. -/
theorem allowedMove_zero {r : Recipe} (recipe : s.recipe = some r) (bounded : s.doseBounded) :
    allowedMove r s.dose.lineOffset s.inUse 0 := by
  obtain ⟨-, -, -, within, low, high⟩ := bounded
  have acc : s.accBound = accLimit r := by simp [State.accBound, recipe]
  have line : s.lineBound = r.lineLimit := by simp [State.lineBound, recipe]
  rw [acc] at within
  rw [line] at low high
  exact ⟨fun e he => by simpa [keepsAccumulator] using within e (List.mem_of_mem_take he), by omega, by omega⟩

end

/-- Settles O49: the move is the allowed one nearest to the mean, and what it adds to the line offset it takes from every trim. -/
theorem centeringKeepsEveryDose : Obligations.CenteringKeepsEveryDose := by
  intro r s recipe bounded
  have stay := allowedMove_zero recipe bounded
  have kept := allowedMove_centeringMove stay
  have between := centeringMove_between stay
  have whole := bounded.1
  refine ⟨centeringMove r s.dose.lineOffset s.inUse, rfl, fun still => ?_, kept, fun active reached d => ?_,
    fun active reached within low high => ?_, between.1, between.2, fun v first last => ?_,
    fun v above => valve_applyMove_of_unused r _ whole above, kept.2.1, kept.2.2, rfl, rfl, rfl⟩
  · refine centeringMove_of_not_centers r _ _ ?_
    rintro ⟨active, reached⟩
    exact still.elim active (not_lt.mpr reached)
  · exact centeringMove_nearest stay ⟨active, reached⟩
  · have nearest := centeringMove_nearest stay ⟨active, reached⟩ (d := meanTrim r s.inUse) ⟨within, low, high⟩
    have same : (meanTrim r s.inUse - centeringMove r s.dose.lineOffset s.inUse).natAbs = 0 := by simpa using nearest
    exact (Int.sub_eq_zero.mp (Int.natAbs_eq_zero.mp same)).symm
  · have entry : (centeringStep r s).valve v = _ := valve_applyMove_of_inUse r _ whole first last
    have within := kept.1 (s.valve v) (List.mem_of_getElem? (valve_eq_of_inUse whole first last))
    simp only [entry]
    exact ⟨rfl, trimOf_moved r _ _, doseOf_applyMove _ recipe _, within.1, within.2⟩

end Sys2Proof.Machine

/-! The control update: what its first seven steps make of the valve's entry and of the pending causes, and the centering counter
after them (R107 to R114). -/

namespace Sys2Proof.Machine

/-! ## The steps on the entry (R107 to R113) -/

theorem satInc_eq_min (top n : Nat) : satInc top n = min top (n + 1) := by
  unfold satInc
  split <;> omega

theorem errorOf_eq (r : Recipe) (net : Int) : errorOf r net = max (-32767) (min 32767 (r.targetNet - net)) :=
  limitTo_eq_max_min _ (by decide)

section
variable {r : Recipe} {net : Int} {e : Valve}

theorem inBand_iff :
    inBand r net = true ↔ (r.targetNet : Int) - r.tolUnder ≤ net ∧ net ≤ (r.targetNet : Int) + r.tolOver :=
  decide_eq_true_iff

theorem integrate_of_dead (dead : (errorOf r net).natAbs ≤ r.deadBand) : integrate r net e = { e with limitRun := 0 } :=
  if_pos dead

theorem integrate_of_within (live : r.deadBand < (errorOf r net).natAbs)
    (low : -accLimit r ≤ e.accumulator + errorOf r net * r.gain)
    (high : e.accumulator + errorOf r net * r.gain ≤ accLimit r) :
    integrate r net e = { e with accumulator := e.accumulator + errorOf r net * r.gain, limitRun := 0 } := by
  unfold integrate
  rw [if_neg (by omega), if_neg (by omega), if_neg (by omega)]

theorem integrate_of_beyond (live : r.deadBand < (errorOf r net).natAbs)
    (beyond : e.accumulator + errorOf r net * r.gain < -accLimit r ∨
      accLimit r < e.accumulator + errorOf r net * r.gain) :
    integrate r net e =
      { e with
        accumulator := max (-accLimit r) (min (accLimit r) (e.accumulator + errorOf r net * r.gain))
        limitRun := min 255 (e.limitRun + 1) } := by
  have positive := accLimit_nonneg r
  unfold integrate
  rw [if_neg (by omega), satInc_eq_min]
  rcases beyond with below | above
  · rw [if_pos below, max_eq_left (by omega)]
  · rw [if_neg (by omega), if_pos above, min_eq_left above.le, max_eq_right (by omega)]

/-- Beyond the dead band the accumulator moves by error × gain, held within A_lim. -/
theorem integrate_accumulator (live : r.deadBand < (errorOf r net).natAbs) :
    (integrate r net e).accumulator = max (-accLimit r) (min (accLimit r) (e.accumulator + errorOf r net * r.gain)) := by
  by_cases within : -accLimit r ≤ e.accumulator + errorOf r net * r.gain ∧
      e.accumulator + errorOf r net * r.gain ≤ accLimit r
  · rw [integrate_of_within live within.1 within.2, min_eq_right within.2, max_eq_right within.1]
  · rw [integrate_of_beyond live (by omega)]

end

/-! ### Which fields a step writes -/

section
variable (r : Recipe) (net : Int) (e : Valve)

theorem integrate_frame : integrate r net e =
    { e with accumulator := (integrate r net e).accumulator, limitRun := (integrate r net e).limitRun } := by
  unfold integrate
  split
  · rfl
  · simp only []
    split
    · rfl
    · split <;> rfl

theorem suspectStep_frame : suspectStep r e = { e with state := (suspectStep r e).state } := by
  unfold suspectStep
  split <;> rfl

theorem probationStep_frame : probationStep r net e = { e with state := (probationStep r net e).state } := by
  unfold probationStep
  split <;> rfl

theorem alertStep_frame : alertStep r e = { e with alertArmed := (alertStep r e).alertArmed } := by
  unfold alertStep
  split <;> rfl

/-- Each field of the entry after an update is written by one step alone, or by none. -/
theorem updatedValve_eq : updatedValve r net e =
    { e with
      state := (probationStep r net (suspectStep r (updatedRuns r net e))).state
      accumulator := (integrate r net e).accumulator
      limitRun := (integrate r net e).limitRun
      ootRun := if inBand r net then 0 else satInc 255 e.ootRun
      netWindow := (enterNet net e).netWindow
      alertArmed := (alertStep r (updatedWindow r net e)).alertArmed } := by
  unfold updatedValve
  rw [alertStep_frame]
  generalize (alertStep r (updatedWindow r net e)).alertArmed = armed
  unfold updatedWindow
  rw [probationStep_frame]
  generalize (probationStep r net (suspectStep r (updatedRuns r net e))).state = state
  rw [suspectStep_frame]
  unfold updatedRuns
  rw [integrate_frame]
  rfl

theorem updatedValve_accumulator : (updatedValve r net e).accumulator = (integrate r net e).accumulator := by
  rw [updatedValve_eq]

theorem updatedValve_limitRun : (updatedValve r net e).limitRun = (integrate r net e).limitRun := by
  rw [updatedValve_eq]

theorem updatedValve_ootRun :
    (updatedValve r net e).ootRun = if inBand r net then 0 else min 255 (e.ootRun + 1) := by
  rw [updatedValve_eq, satInc_eq_min]

/-- An update leaves the base offset, the two counts of the valve and the last dose served. -/
theorem updatedValve_keeps : (updatedValve r net e).baseOffset = e.baseOffset ∧ (updatedValve r net e).weighed = e.weighed ∧
    (updatedValve r net e).rejected = e.rejected ∧ (updatedValve r net e).lastDose = e.lastDose := by
  rw [updatedValve_eq]
  exact ⟨rfl, rfl, rfl, rfl⟩

theorem updatedValve_netWindow : (updatedValve r net e).netWindow = (enterNet net e).netWindow := by
  rw [updatedValve_eq]

theorem updatedRuns_state : (updatedRuns r net e).state = e.state := by
  unfold updatedRuns
  rw [integrate_frame]
  rfl

theorem updatedRuns_runs : (updatedRuns r net e).limitRun = (updatedValve r net e).limitRun ∧
    (updatedRuns r net e).ootRun = (updatedValve r net e).ootRun := by
  rw [updatedValve_eq]
  unfold updatedRuns
  rw [integrate_frame]
  exact ⟨rfl, rfl⟩

end

/-! ### The state of the valve (R110, R111) -/

section
variable {r : Recipe} {net : Int} {e : Valve}

/-- The fourth step finds the runs as the whole update leaves them. -/
theorem reachesAlarm_iff : reachesAlarm r (updatedRuns r net e) = true ↔ e.state = .active ∧
    (r.limitAlarm ≤ (updatedValve r net e).limitRun ∨ r.ootAlarm ≤ (updatedValve r net e).ootRun) := by
  obtain ⟨limitRun, ootRun⟩ := updatedRuns_runs r net e
  simp [reachesAlarm, updatedRuns_state, limitRun, ootRun]

theorem updatedValve_state :
    (updatedValve r net e).state = (probationStep r net (suspectStep r (updatedRuns r net e))).state := by
  rw [updatedValve_eq]

theorem updatedValve_state_of_alarm (alarm : reachesAlarm r (updatedRuns r net e) = true) :
    (updatedValve r net e).state = .suspect := by
  rw [updatedValve_state, suspectStep, if_pos alarm]
  rfl

theorem updatedValve_state_of_no_alarm (quiet : ¬reachesAlarm r (updatedRuns r net e) = true) :
    (updatedValve r net e).state = (probationStep r net (updatedRuns r net e)).state := by
  rw [updatedValve_state, suspectStep, if_neg quiet]

theorem updatedValve_state_of_probation {left : Nat} (probation : e.state = .probation left) :
    (updatedValve r net e).state =
      if inBand r net then probationOrActive (left - 1) else probationOrActive r.probationCount := by
  have quiet : ¬reachesAlarm r (updatedRuns r net e) = true := by simp [reachesAlarm_iff, probation]
  rw [updatedValve_state_of_no_alarm quiet, probationStep, updatedRuns_state, probation]

/-- A valve that neither reaches an alarm nor is on probation keeps its state. -/
theorem updatedValve_state_of_still (quiet : ¬reachesAlarm r (updatedRuns r net e) = true)
    (settled : ∀ left, e.state ≠ .probation left) : (updatedValve r net e).state = e.state := by
  rw [updatedValve_state_of_no_alarm quiet, probationStep]
  split
  · next left probation => exact absurd ((updatedRuns_state r net e).symm.trans probation) (settled left)
  · exact updatedRuns_state r net e

/-! ### The net window and the early alert (R112, R113) -/

/-- The net joins as the newest, and of more than 8 nets the oldest is lost. -/
theorem enterNet_netWindow (full : e.netWindow.length ≤ 8) :
    (enterNet net e).netWindow = (e.netWindow ++ [net]).drop (e.netWindow.length + 1 - 8) := by
  unfold enterNet
  split
  · next room => rw [show e.netWindow.length + 1 - 8 = 0 by omega]; rfl
  · next crowded =>
    have length : e.netWindow.length = 8 := by omega
    rw [length, List.drop_append_of_le_length (by omega), List.drop_one]

theorem belowAlert_iff : belowAlert r (updatedWindow r net e) = true ↔ r.alertBand ≠ 0 ∧
    roundAway (updatedValve r net e).netWindow.sum (updatedValve r net e).netWindow.length <
      (r.targetNet : Int) - r.alertBand := by
  have window : (updatedValve r net e).netWindow = (updatedWindow r net e).netWindow := by
    unfold updatedValve
    rw [alertStep_frame]
  rw [window]
  unfold belowAlert windowMean
  rw [Bool.and_eq_true, bne_iff_ne, decide_eq_true_iff]

theorem updatedValve_alertArmed : (updatedValve r net e).alertArmed =
    if r.alertBand = 0 then e.alertArmed else !belowAlert r (updatedWindow r net e) := by
  unfold updatedValve alertStep
  split
  · unfold updatedWindow updatedRuns
    rw [probationStep_frame, suspectStep_frame, integrate_frame]
    rfl
  · rfl

end

/-! ## The first seven steps on the part -/

section
variable (r : Recipe) (v : Nat) (net : Int) (s : State)

/-- The causes that an update of valve `v` raises, on a state `t` (R110, R113). -/
def raisedByUpdate (t : State) : State :=
  let suspected := if reachesAlarm r (updatedRuns r net (s.valve v)) then raiseAll .valveSuspect v t else t
  if belowAlert r (updatedWindow r net (s.valve v)) && (s.valve v).alertArmed then raiseAll .alert v suspected
  else suspected

/-- The part after the first seven steps of an update (R107 to R113). -/
def entryUpdated : State := raisedByUpdate r v net s (s.setValve v (updatedValve r net (s.valve v)))

/-- An update is its first seven steps and then the centering counter (R114). -/
theorem controlUpdate_eq : controlUpdate r v net s = centeringCount r (entryUpdated r v net s) := rfl

theorem raisedByUpdate_frame (t : State) :
    raisedByUpdate r v net s t = { t with attention := (raisedByUpdate r v net s t).attention } := by
  unfold raisedByUpdate
  simp only []
  split <;> split <;> rfl

/-- What is raised stands on the attention states and the moment alone. -/
theorem entryUpdated_attention : (entryUpdated r v net s).attention = (raisedByUpdate r v net s s).attention := by
  unfold entryUpdated raisedByUpdate
  simp only []
  split <;> split <;> rfl

theorem entryUpdated_dose :
    (entryUpdated r v net s).dose = (s.setValve v (updatedValve r net (s.valve v))).dose := by
  unfold entryUpdated
  rw [raisedByUpdate_frame]

theorem entryUpdated_frame : entryUpdated r v net s =
    { s with dose := (entryUpdated r v net s).dose, attention := (entryUpdated r v net s).attention } := by
  rw [entryUpdated_dose]
  unfold entryUpdated
  rw [raisedByUpdate_frame]
  rfl

theorem valve_entryUpdated (w : Nat) :
    (entryUpdated r v net s).valve w = (s.setValve v (updatedValve r net (s.valve v))).valve w := by
  rw [State.valve, entryUpdated_dose]
  rfl

end

/-! ## Causes pending on all links -/

theorem pendingOnAll_raiseAll (c : Cause) (d : Int) (s : State) : (raiseAll c d s).pendingOnAll c d := by
  intro l
  rw [raiseAll_att]
  exact mem_putCause _ _ _

theorem pendingOnAll_raiseAll_of_ne {c x : Cause} {d : Int} {s : State} (y : Int) (before : s.pendingOnAll c d)
    (other : c ≠ x) : (raiseAll x y s).pendingOnAll c d := by
  intro l
  rw [raiseAll_att]
  exact mem_putCause_of_ne (before l) other

section
variable {r : Recipe} {v : Nat} {net : Int} {s : State}

theorem valveSuspect_pending (alarm : reachesAlarm r (updatedRuns r net (s.valve v)) = true) :
    (entryUpdated r v net s).pendingOnAll .valveSuspect v := by
  unfold entryUpdated raisedByUpdate
  simp only []
  rw [if_pos alarm]
  split
  · exact pendingOnAll_raiseAll_of_ne _ (pendingOnAll_raiseAll _ _ _) (by decide)
  · exact pendingOnAll_raiseAll _ _ _

theorem alert_pending (below : belowAlert r (updatedWindow r net (s.valve v)) = true)
    (armed : (s.valve v).alertArmed = true) : (entryUpdated r v net s).pendingOnAll .alert v := by
  unfold entryUpdated raisedByUpdate
  simp only []
  rw [below, armed]
  exact pendingOnAll_raiseAll _ _ _

/-- The causes that an update raises, in the words of R110 and R113. -/
theorem entryUpdated_attention_eq :
    let u := updatedValve r net (s.valve v)
    let suspected := if (s.valve v).state = .active ∧ (r.limitAlarm ≤ u.limitRun ∨ r.ootAlarm ≤ u.ootRun) then
      raiseAll .valveSuspect v s else s
    (entryUpdated r v net s).attention =
      (if (r.alertBand ≠ 0 ∧ roundAway u.netWindow.sum u.netWindow.length < (r.targetNet : Int) - r.alertBand) ∧
          (s.valve v).alertArmed = true then raiseAll .alert v suspected else suspected).attention := by
  intro u suspected
  rw [entryUpdated_attention]
  unfold raisedByUpdate
  simp only [Bool.and_eq_true, belowAlert_iff, reachesAlarm_iff]
  rfl

/-! ## The centering counter (R114) -/

theorem centeringCount_of_early {t : State} (early : t.dose.centering + 1 < r.centerEvery) :
    centeringCount r t = { t with dose := { t.dose with centering := t.dose.centering + 1 } } :=
  if_neg (not_le.mpr early)

theorem centeringCount_of_due {t : State} (due : r.centerEvery ≤ t.dose.centering + 1) :
    centeringCount r t = centeringStep r { t with dose := { t.dose with centering := 0 } } :=
  if_pos due

theorem entryUpdated_centering : (entryUpdated r v net s).dose.centering = s.dose.centering := by
  rw [entryUpdated_dose]
  rfl

theorem controlUpdate_of_early (early : s.dose.centering + 1 < r.centerEvery) : controlUpdate r v net s =
    let t := entryUpdated r v net s
    { t with dose := { t.dose with centering := s.dose.centering + 1 } } := by
  rw [← entryUpdated_centering (r := r) (v := v) (net := net)] at early ⊢
  exact centeringCount_of_early early

theorem controlUpdate_of_due (due : r.centerEvery ≤ s.dose.centering + 1) : controlUpdate r v net s =
    let t := entryUpdated r v net s
    centeringStep r { t with dose := { t.dose with centering := 0 } } := by
  rw [← entryUpdated_centering (r := r) (v := v) (net := net)] at due
  exact centeringCount_of_due due

end

/-- Settles O48: each clause is about one field of the entry or one step of the update, and is the lemma above about it. -/
theorem controlUpdateEntry : Obligations.ControlUpdateEntry := by
  intro r v net s ⟨length, count⟩ first last full e err lim candidate inside
  have error : errorOf r net = err := errorOf_eq r net
  have entry : (entryUpdated r v net s).valve v = updatedValve r net e := by
    rw [valve_entryUpdated, valve_setValve_same _ _ first (by omega)]
  have dose := entryUpdated_dose r v net s
  refine ⟨entryUpdated r v net s, controlUpdate_of_early, controlUpdate_of_due, entryUpdated_frame r v net s, ?_⟩
  rw [entry]
  intro u alarm below suspected
  have accumulator : u.accumulator = (integrate r net e).accumulator := updatedValve_accumulator r net e
  have limitRun : u.limitRun = (integrate r net e).limitRun := updatedValve_limitRun r net e
  have ootRun : u.ootRun = if inBand r net then 0 else min 255 (e.ootRun + 1) := updatedValve_ootRun r net e
  have armed : u.alertArmed = if r.alertBand = 0 then e.alertArmed else !belowAlert r (updatedWindow r net e) :=
    updatedValve_alertArmed
  have window : u.netWindow = (enterNet net e).netWindow := updatedValve_netWindow r net e
  obtain ⟨base, weighed, rejected, lastDose⟩ := updatedValve_keeps r net e
  refine ⟨entryUpdated_attention_eq, fun dead => ?_, fun live => ⟨?_, fun kept => ?_, fun beyond => ?_⟩,
    fun within => ?_, fun outside => ?_, fun active reached => ?_, fun active limit oot => ?_,
    fun left probation within => ?_, fun left probation outside => ?_, fun settled idle => ?_, ?_, fun off => ?_,
    fun on => ⟨?_, fun low was => ?_⟩, base, weighed, rejected, lastDose, fun w hw _ other => ?_, by rw [dose]; rfl,
    by rw [dose]; rfl, by rw [dose]; exact List.length_set.trans length⟩
  · rw [accumulator, limitRun, integrate_of_dead (error ▸ dead)]
    exact ⟨rfl, rfl⟩
  · rw [accumulator, integrate_accumulator (error ▸ live), error]
    rfl
  · rw [limitRun, integrate_of_within (error ▸ live) (error ▸ kept.1) (error ▸ kept.2)]
  · rw [limitRun, integrate_of_beyond (error ▸ live) (error ▸ beyond)]
  · rw [ootRun, if_pos (inBand_iff.mpr within)]
  · rw [ootRun, if_neg (mt inBand_iff.mp outside)]
  · have reaches := reachesAlarm_iff.mpr ⟨active, reached⟩
    exact ⟨updatedValve_state_of_alarm reaches, valveSuspect_pending reaches⟩
  · have quiet : ¬reachesAlarm r (updatedRuns r net e) = true := by
      rw [reachesAlarm_iff]
      rintro ⟨-, reached⟩
      exact reached.elim (not_le.mpr limit) (not_le.mpr oot)
    exact (updatedValve_state_of_still quiet (by simp [active])).trans active
  · exact (updatedValve_state_of_probation probation).trans (if_pos (inBand_iff.mpr within))
  · exact (updatedValve_state_of_probation probation).trans (if_neg (mt inBand_iff.mp outside))
  · exact updatedValve_state_of_still (fun reaches => idle (reachesAlarm_iff.mp reaches).1) settled
  · rw [window, enterNet_netWindow full]
  · rw [armed, if_pos off]
  · rw [armed, if_neg on, Bool.not_eq_true', ← Bool.not_eq_true, belowAlert_iff]
  · exact alert_pending (belowAlert_iff.mpr low) was
  · rw [valve_entryUpdated, valve_setValve_other _ _ hw first other]

end Sys2Proof.Machine

/-! VALVE HOLD, VALVE FREE and VALVE ACCEPT: the checks they share, what the dose unit makes of a valve's state, and the answer
(R133, R134, R136, R138). -/

namespace Sys2Proof.Machine

/-! ## The checks that the requests share -/

theorem valveInRange_iff (v : Nat) (s : State) : s.valveInRange v = true ↔ 1 ≤ v ∧ v ≤ s.valveCount := decide_eq_true_iff

section
variable {v : Byte} {s : State} (act : Nat → State → Served)

theorem withValve_of_config (config : s.control.state = .config) : withValve [v] act s = refuse .state s :=
  if_pos config

theorem withValve_of_range (settled : s.control.state ≠ .config) (outside : v.toNat < 1 ∨ s.valveCount < v.toNat) :
    withValve [v] act s = refuse .range s := by
  have range : ¬s.valveInRange v.toNat = true := by rw [valveInRange_iff]; omega
  exact (if_neg settled).trans (if_pos (by simpa [u8At] using range))

theorem withValve_of_inUse (settled : s.control.state ≠ .config) (first : 1 ≤ v.toNat) (last : v.toNat ≤ s.valveCount) :
    withValve [v] act s = act v.toNat s := by
  have range : s.valveInRange v.toNat = true := (valveInRange_iff _ _).mpr ⟨first, last⟩
  exact (if_neg settled).trans (if_neg (by simpa [u8At] using range))

end

/-! ## The answer -/

/-- The answer for a valve in a state: its number, the state and the holder. -/
def holdAnswer (st : Status) (v : Byte) (x : ValveState) : Reply :=
  { status := st, payload := [v, BitVec.ofNat 8 x.code, BitVec.ofNat 8 (holderField x)] }

theorem holdReply_eq (st : Status) (v : Byte) (s : State) :
    holdReply st v.toNat s = (holdAnswer st v (s.valve v.toNat).state, s) := by
  rw [holdReply, u8_toNat]
  rfl

theorem holdReply_setValve (st : Status) {v : Byte} {s : State} (e : Valve) (whole : s.tableWhole) (first : 1 ≤ v.toNat)
    (last : v.toNat ≤ s.valveCount) :
    holdReply st v.toNat (s.setValve v.toNat e) = (holdAnswer st v e.state, s.setValve v.toNat e) := by
  obtain ⟨length, count⟩ := whole
  rw [holdReply_eq, valve_setValve_same s e first (by omega)]

/-- A state that has no holder is written with the holder 0. -/
theorem holderField_of_not_blocked {x : ValveState} (free : ∀ h, x ≠ .blocked h) : holderField x = 0 := by
  cases x with
  | blocked h => exact absurd rfl (free h)
  | unused | active | probation | suspect => rfl

theorem holderField_probationOrActive (n : Nat) : holderField (probationOrActive n) = 0 := by
  unfold probationOrActive
  split <;> rfl

section
variable {v : Byte} {s : State}

theorem holdReply_of_blocked {h : Link} (st : Status) (held : (s.valve v.toNat).state = .blocked h) :
    holdReply st v.toNat s = ({ status := st, payload := [v, 4, BitVec.ofNat 8 (holderCode h)] }, s) := by
  rw [holdReply_eq, held]
  rfl

theorem holdReply_of_not_blocked (st : Status) (free : ∀ h, (s.valve v.toNat).state ≠ .blocked h) :
    holdReply st v.toNat s =
      ({ status := st, payload := [v, BitVec.ofNat 8 (s.valve v.toNat).state.code, 0] }, s) := by
  rw [holdReply_eq, holdAnswer, holderField_of_not_blocked free]
  rfl

/-- A released valve has no holder, whether it enters PROBATION or ACTIVE. -/
theorem holdReply_releaseValve (whole : s.tableWhole) (first : 1 ≤ v.toNat) (last : v.toNat ≤ s.valveCount) :
    holdReply .ok v.toNat (releaseValve v.toNat s) =
      (.ok [v, BitVec.ofNat 8 (probationOrActive s.probationCount).code, 0], releaseValve v.toNat s) := by
  rw [releaseValve, holdReply_setValve .ok _ whole first last, holdAnswer, holderField_probationOrActive]
  rfl

end

/-! ## VALVE HOLD (R133, R134) -/

section
variable {l h : Link} {v : Nat} {s : State}

theorem holdValve_of_not_blocked (free : ∀ h, (s.valve v).state ≠ .blocked h) :
    holdValve l v s = holdReply .ok v (setValveState v (.blocked l) s) := by
  unfold holdValve
  split
  next h held => exact absurd held (free h)
  next => rfl

theorem holdValve_of_blocked (held : (s.valve v).state = .blocked h) :
    holdValve l v s = if h = l then holdReply .ok v s
      else if l = .supervisor then holdReply .ok v (setValveState v (.blocked .supervisor) s) else holdReply .held v s := by
  rw [holdValve, held]

/-! ## VALVE FREE (R136) -/

theorem freeValve_of_blocked (held : (s.valve v).state = .blocked h) :
    freeValve l v s = if h = l ∨ l = .supervisor then holdReply .ok v (releaseValve v s) else holdReply .held v s := by
  rw [freeValve, held]

theorem freeValve_of_suspect (suspect : (s.valve v).state = .suspect) :
    freeValve l v s = if l = .supervisor then holdReply .ok v (releaseValve v s) else holdReply .held v s := by
  rw [freeValve, suspect]

theorem freeValve_of_in_service (free : ∀ h, (s.valve v).state ≠ .blocked h) (sound : (s.valve v).state ≠ .suspect) :
    freeValve l v s = holdReply .ok v s := by
  unfold freeValve
  split
  next h held => exact absurd held (free h)
  next suspect => exact absurd suspect sound
  next => rfl

/-! ## VALVE ACCEPT (R138) -/

theorem acceptValve_of_blocked (held : (s.valve v).state = .blocked h) : acceptValve v s = holdReply .held v s := by
  rw [acceptValve, held]

theorem acceptValve_of_suspect (suspect : (s.valve v).state = .suspect) : acceptValve v s =
    holdReply .ok v (s.setValve v { s.valve v with state := .active, limitRun := 0, ootRun := 0 }) := by
  rw [acceptValve, suspect]

theorem acceptValve_of_in_service (free : ∀ h, (s.valve v).state ≠ .blocked h) (sound : (s.valve v).state ≠ .suspect) :
    acceptValve v s = holdReply .ok v s := by
  unfold acceptValve
  split
  next suspect => exact absurd suspect sound
  next h held => exact absurd held (free h)
  next => rfl

end

/-! ## The requests, answered by the dose unit -/

section
variable {l : Link} {v : Byte} {s : State}

theorem exec_valveHold (awaits : s.awaits ⟨l, Kind.valveHold.code, [v], none⟩) :
    exec (.valveHold l [v]) s =
      .next (answer l 0x03 (withValve [v] (holdValve l) s).1 (withValve [v] (holdValve l) s).2) :=
  next_serve_of_awaits _ awaits rfl rfl

theorem exec_valveFree (awaits : s.awaits ⟨l, Kind.valveFree.code, [v], none⟩) :
    exec (.valveFree l [v]) s =
      .next (answer l 0x04 (withValve [v] (freeValve l) s).1 (withValve [v] (freeValve l) s).2) :=
  next_serve_of_awaits _ awaits rfl rfl

theorem exec_valveAccept (awaits : s.awaits ⟨.supervisor, Kind.valveAccept.code, [v], none⟩) :
    exec (.valveAccept .supervisor [v]) s =
      .next (answer .supervisor 0x05 (withValve [v] acceptValve s).1 (withValve [v] acceptValve s).2) :=
  next_serve_of_awaits _ awaits rfl rfl

end

/-- Settles O51: the checks come first, and then the dose unit acts by the state of the valve and by the link. -/
theorem valveHoldsAndReleases : Obligations.ValveHoldsAndReleases := by
  refine ⟨fun l v s awaits whole => ?_, fun l v s whole settled first last => ?_, fun l v s => ?_⟩
  · rw [exec_valveHold awaits]
    refine ⟨fun config => by rw [withValve_of_config _ config]; rfl,
      fun settled outside => by rw [withValve_of_range _ settled outside]; rfl, fun settled first last => ?_⟩
    rw [withValve_of_inUse _ settled first last]
    refine ⟨fun free => ?_, fun own => ?_, fun h held other supervisor => ?_, fun h held other station => ?_⟩
    · rw [holdValve_of_not_blocked free, setValveState, holdReply_setValve .ok _ whole first last]
      rfl
    · rw [holdValve_of_blocked own, if_pos rfl, holdReply_of_blocked .ok own]
      rfl
    · rw [holdValve_of_blocked held, if_neg other, if_pos supervisor, setValveState,
        holdReply_setValve .ok _ whole first last]
      rfl
    · rw [holdValve_of_blocked held, if_neg other, if_neg station, holdReply_of_blocked .held held]
  · refine ⟨fun awaits => ?_, fun awaits => ?_⟩
    · rw [exec_valveFree awaits, withValve_of_inUse _ settled first last]
      refine ⟨fun h held may => ?_, fun h held other station => ?_, fun suspect supervisor => ?_,
        fun suspect station => ?_, fun free sound => ?_⟩
      · rw [freeValve_of_blocked held, if_pos may, holdReply_releaseValve whole first last]
        rfl
      · rw [freeValve_of_blocked held, if_neg (not_or.mpr ⟨other, station⟩), holdReply_of_blocked .held held, held]
        rfl
      · rw [freeValve_of_suspect suspect, if_pos supervisor, holdReply_releaseValve whole first last]
        rfl
      · rw [freeValve_of_suspect suspect, if_neg station, holdReply_of_not_blocked .held (by simp [suspect])]
      · rw [freeValve_of_in_service free sound, holdReply_of_not_blocked .ok free]
        rfl
    · rw [exec_valveAccept awaits, withValve_of_inUse _ settled first last]
      refine ⟨fun suspect => ?_, fun h held => ?_, fun free sound => ?_⟩
      · rw [acceptValve_of_suspect suspect, holdReply_setValve .ok _ whole first last]
        rfl
      · rw [acceptValve_of_blocked held, holdReply_of_blocked .held held, held]
        rfl
      · rw [acceptValve_of_in_service free sound, holdReply_of_not_blocked .ok free]
        rfl
  · refine ⟨fun awaits => ?_, fun awaits => ?_⟩
    · rw [exec_valveFree awaits]
      exact ⟨fun config => by rw [withValve_of_config _ config]; rfl,
        fun settled outside => by rw [withValve_of_range _ settled outside]; rfl⟩
    · rw [exec_valveAccept awaits]
      exact ⟨fun config => by rw [withValve_of_config _ config]; rfl,
        fun settled outside => by rw [withValve_of_range _ settled outside]; rfl⟩

end Sys2Proof.Machine

/-! The form of an answer, with the check that closes it, and where the answer goes: whole at the end of the transmit FIFO, or held
(R189, R190, R195). -/

namespace Sys2Proof.Machine

/-! ## The sum of characters and the check (R188, R189) -/

theorem sumBytes_append (as bs : List Byte) : sumBytes (as ++ bs) = sumBytes as + sumBytes bs := by
  induction as with
  | nil => exact (zero_add _).symm
  | cons a as ih => rw [List.cons_append, sumBytes, sumBytes, ih, add_assoc]

/-- The check makes the sum 0, whatever characters it closes. -/
theorem sumBytes_append_checkByte (body : List Byte) : sumBytes (body ++ [checkByte body]) = 0 :=
  calc sumBytes (body ++ [checkByte body])
    _ = sumBytes body + sumBytes [checkByte body] := sumBytes_append _ _
    _ = sumBytes body + -sumBytes body := congrArg (sumBytes body + ·) (add_zero _)
    _ = 0 := add_neg_cancel _

/-! ## The characters of an answer (R189) -/

/-- Every status code fits the one character that carries it. -/
theorem Status.code_lt (st : Status) : st.code < 256 := by cases st <;> decide

/-- An answer is its payload and five characters: lead, kind, length, status and check. -/
theorem length_answerFrame (kind : Byte) (r : Reply) : (answerFrame kind r).length = r.payload.length + 5 := by
  simp [answerFrame]

/-! ## The place of an answer (R190, R195) -/

section
variable {l : Link} {kind : Byte} {r : Reply} {s : State}

theorem answer_of_room (room : (s.link l).port.tx.fifo.length + (answerFrame kind r).length ≤ 128) :
    answer l kind r s = s.setLink l { s.link l with
      request := none,
      port := { (s.link l).port with tx := { (s.link l).port.tx with
        fifo := (s.link l).port.tx.fifo ++ answerFrame kind r } } } := by
  rcases answered_cases (s.link l) (answerFrame kind r) with ⟨-, placed⟩ | ⟨full, -⟩
  · rw [answer, placed]
  · exact absurd room (not_le.mpr full)

theorem answer_of_full (full : 128 < (s.link l).port.tx.fifo.length + (answerFrame kind r).length) :
    answer l kind r s = s.setLink l { s.link l with request := none, held := some (answerFrame kind r) } := by
  rcases answered_cases (s.link l) (answerFrame kind r) with ⟨room, -⟩ | ⟨-, held⟩
  · exact absurd full (not_lt.mpr room)
  · rw [answer, held]

end

/-! ## The obligation -/

/-- Settles O9: the length and the status each fit one character, the check closes the sum over all but the lead, and the link takes
the answer by the room in its transmit FIFO. -/
theorem answersAreFormedAndPlaced : Obligations.AnswersAreFormedAndPlaced := by
  refine ⟨fun kind r short => ?_, fun l kind r s => ⟨answer_of_room, answer_of_full⟩⟩
  have lengthFits : (BitVec.ofNat 8 r.payload.length).toNat = r.payload.length := Nat.mod_eq_of_lt (by omega)
  have statusFits : (BitVec.ofNat 8 r.status.code).toNat = r.status.code := Nat.mod_eq_of_lt r.status.code_lt
  have size := length_answerFrame kind r
  exact ⟨_, _, _, rfl, lengthFits, statusFits, sumBytes_append_checkByte (_ :: _ :: _ :: r.payload), by omega, by omega⟩

end Sys2Proof.Machine

/-! The checks before the owning block's own: a request is answered LINK, LENGTH or UNKNOWN by its kind, its link and the length of its
payload alone (R196 to R199). -/

namespace Sys2Proof

/-! ## The codes of the catalogue (R197, section 12.2) -/

namespace Kind

theorem mem_all (k : Kind) : k ∈ all := by cases k <;> decide

/-- What each kind of the catalogue's list has, every kind has. -/
theorem forall_of_all {P : Kind → Prop} (listed : ∀ k ∈ all, P k) (k : Kind) : P k := listed k k.mem_all

/-- The codes run from 1 to 29 in the order of the catalogue. -/
theorem codes_eq_range : all.map code = (List.range 29).map (fun i => BitVec.ofNat 8 (i + 1)) := by decide

theorem mem_codes_iff (b : Byte) : b ∈ all.map code ↔ 1 ≤ b.toNat ∧ b.toNat ≤ 29 := by
  rw [codes_eq_range, List.mem_map]
  constructor
  · rintro ⟨i, listed, rfl⟩
    have below : i < 29 := List.mem_range.mp listed
    have fits : (BitVec.ofNat 8 (i + 1)).toNat = i + 1 := Nat.mod_eq_of_lt (by omega)
    omega
  · rintro ⟨first, last⟩
    refine ⟨b.toNat - 1, List.mem_range.mpr (by omega), ?_⟩
    rw [Nat.sub_add_cancel first, BitVec.ofNat_toNat, BitVec.setWidth_eq]

theorem code_bounds (k : Kind) : 1 ≤ k.code.toNat ∧ k.code.toNat ≤ 29 :=
  (mem_codes_iff _).mp (List.mem_map_of_mem k.mem_all)

@[simp] theorem ofCode_code : ∀ k : Kind, ofCode k.code = some k := forall_of_all (by decide)

theorem code_injective : Function.Injective code := fun k m same =>
  Option.some.inj (by rw [← ofCode_code k, same, ofCode_code])

theorem eq_code_of_ofCode {k : Kind} {b : Byte} (named : ofCode b = some k) : b = k.code :=
  (eq_of_beq (List.find?_some named :)).symm

theorem ofCode_eq_none_iff (b : Byte) : ofCode b = none ↔ b = 0 ∨ 29 < b.toNat := by
  have zero : b = 0 ↔ b.toNat = 0 := BitVec.toNat_inj.symm
  calc ofCode b = none
    _ ↔ b ∉ all.map code := by simp [ofCode]
    _ ↔ b = 0 ∨ 29 < b.toNat := by rw [mem_codes_iff, zero]; omega

/-- The kind of an answer is no kind of a request. -/
theorem ofCode_answerKind (k : Kind) : ofCode (k.code + 0x80) = none := by
  have bounds := k.code_bounds
  have raised : (k.code + 0x80).toNat = k.code.toNat + 128 := Nat.mod_eq_of_lt (show k.code.toNat + 128 < 256 by omega)
  exact (ofCode_eq_none_iff _).mpr (.inr (by omega))

end Kind

end Sys2Proof

namespace Sys2Proof.Machine

/-! ## Which request a frame is (R195, R196) -/

/-- A request command is served as its frame says, or is the frame of an unknown kind. -/
theorem exec_of_frame {i : Instr} {f : RequestFrame} (frame : i.frame? = some f) :
    (∃ (k : Kind) (own : State → Served), f.kind = k.code ∧
      ∀ s, exec i s = .next (serve k f.link f.payload f.stamp own s)) ∨
    i = .unknownKind f.link f.kind f.payload := by
  cases i with
  | unknownKind l kind p => cases frame; exact .inr rfl
  | _ => cases frame <;> exact .inl ⟨_, _, rfl, fun _ => rfl⟩

/-- A well-formed frame of a known kind is served as a request of that kind. -/
theorem exec_eq_serve_of_frame {i : Instr} {f : RequestFrame} {k : Kind} (formed : i.wellFormed = true)
    (frame : i.frame? = some f) (kind : f.kind = k.code) :
    ∃ own : State → Served, ∀ s, exec i s = .next (serve k f.link f.payload f.stamp own s) := by
  rcases exec_of_frame frame with ⟨m, own, named, served⟩ | rfl
  · obtain rfl : m = k := Kind.code_injective (named.symm.trans kind)
    exact ⟨own, served⟩
  · simp [Instr.wellFormed, kind] at formed

/-! ## The refusals before the owner's checks (R197 to R199) -/

theorem next_serve_of_wrong_length {k : Kind} {l : Link} {p : List Byte} {st : Option Position} {s : State}
    (own : State → Served) (awaits : s.awaits ⟨l, k.code, p, st⟩) (link : permitted k l = true)
    (length : lengthOk k p = false) :
    (.next (serve k l p st own s) : Result) = .next (answer l k.code (.refused .length) s) := by
  obtain ⟨released, admits⟩ := awaits
  simp only at admits
  simp [serve, released, admits, link, length, Reply.refused]

theorem exec_unknownKind {l : Link} {kind : Byte} {p : List Byte} {s : State} (unknown : Kind.ofCode kind = none)
    (awaits : s.awaits ⟨l, kind, p, none⟩) :
    exec (.unknownKind l kind p) s = .next (answer l kind (.refused .unknown) s) := by
  obtain ⟨released, admits⟩ := awaits
  simp only at admits
  have served : serveUnknown l kind p s = answer l kind (.refused .unknown) s := by
    simp [serveUnknown, unknown, admits, Reply.refused]
  exact congrArg Host.Outcome.next ((unlessReset_of_released released).trans served)

/-! ## The lengths (R199) -/

/-- The length of a RECIPE LOAD follows from the pattern length that closes its fixed part. -/
theorem lengthOk_recipeLoad_iff (p : List Byte) :
    lengthOk .recipeLoad p = true ↔ 33 ≤ p.length ∧ p.length = 33 + (p.getD 32 0).toNat := by
  rw [lengthOk, Bool.and_eq_true, decide_eq_true_iff, beq_iff_eq]
  rfl

/-! ## The obligation -/

/-- Settles O10: a well-formed frame of a known kind goes through `serve`, which refuses by the link first and by the length next; the
tables of links, lengths and codes are compared kind by kind. -/
theorem requestChecks : Obligations.RequestChecks := by
  refine ⟨fun i f k s formed frame kind awaits => ?_,
    ⟨fun l kind p s unknown awaits => exec_unknownKind unknown awaits, fun k kind => Kind.eq_code_of_ofCode,
      Kind.ofCode_eq_none_iff, Kind.ofCode_answerKind, rfl, fun kind => ⟨_, rfl⟩⟩,
    fun k l => ?_, fun k p fixed => ?_, lengthOk_recipeLoad_iff, Kind.codes_eq_range⟩
  · obtain ⟨own, served⟩ := exec_eq_serve_of_frame formed frame kind
    obtain ⟨l, b, p, st⟩ := f
    obtain rfl : b = k.code := kind
    rw [served]
    exact ⟨next_serve_of_not_permitted own awaits, next_serve_of_wrong_length own awaits⟩
  · revert k
    cases l <;> exact Kind.forall_of_all (by decide)
  · cases k with
    | recipeLoad => exact absurd rfl fixed
    | _ => simp [lengthOk]

end Sys2Proof.Machine

/-! What a piece of the part's work keeps (chapters 1 to 11): the agreements and bounds that every step keeps, and, for work that is
neither a settings load nor a state request, the links, the operating state but for the passage to HALT, and the trims while the
part is frozen. -/

namespace Sys2Proof.Machine

/-! ## The two relations -/

/-- From `s` to `t` the clock and the queue of commands stay, and each agreement and bound that holds in `s` holds in `t`. -/
structure Keeps (s t : State) : Prop where
  now : t.now = s.now
  pending : t.pending = s.pending
  lineStop : s.lineStopAgrees → t.lineStopAgrees
  attention : s.attentionAgrees → t.attentionAgrees
  capacity : s.withinCapacity → t.withinCapacity
  doses : s.doseBounded → t.doseBounded
  generations : s.generationsAgree → t.generationsAgree
  platform : s.platformAgrees → t.platformAgrees

/-- The operating state and the line stop stay, or pass from RUN to HALT as R172 has it. -/
def Control.halts (c d : Control) : Prop :=
  (d.state = c.state ∧ d.lineStop = c.lineStop) ∨ (c.state = .run ∧ d.state = .halt ∧ d.lineStop = true)

/-- What FREEZE holds: the line offset and the accumulators (R120). -/
def DoseUnit.trims (d : DoseUnit) : Int × List Int := (d.lineOffset, d.valves.map Valve.accumulator)

/-- Work of the part that no settings load, no state request and no freeze source is: it also leaves the links and the freeze
source set, leaves the operating state but for the passage to HALT, and leaves the trims of a frozen part. -/
structure Works (s t : State) : Prop extends Keeps s t where
  links : t.links = s.links
  control : s.control.halts t.control
  freeze : t.dose.freeze = s.dose.freeze
  trims : s.frozen = true → t.dose.trims = s.dose.trims

section
variable {s t u : State}

theorem Keeps.refl (s : State) : Keeps s s := ⟨rfl, rfl, id, id, id, id, id, id⟩

theorem Keeps.trans (h : Keeps s t) (k : Keeps t u) : Keeps s u where
  now := k.now.trans h.now
  pending := k.pending.trans h.pending
  lineStop := k.lineStop ∘ h.lineStop
  attention := k.attention ∘ h.attention
  capacity := k.capacity ∘ h.capacity
  doses := k.doses ∘ h.doses
  generations := k.generations ∘ h.generations
  platform := k.platform ∘ h.platform

theorem Control.halts_refl (c : Control) : c.halts c := .inl ⟨rfl, rfl⟩

theorem Control.halts_trans {c d e : Control} (h : c.halts d) (k : d.halts e) : c.halts e := by
  unfold Control.halts at *
  rcases h with ⟨state, stop⟩ | ⟨run, halt, stop⟩
  · rwa [state, stop] at k
  · rcases k with ⟨state, stop'⟩ | ⟨run', -⟩
    · exact .inr ⟨run, state.trans halt, stop'.trans stop⟩
    · rw [halt] at run'
      cases run'

theorem frozen_congr (h : t.dose.freeze = s.dose.freeze) : t.frozen = s.frozen := by rw [State.frozen, h, State.frozen]

theorem Works.refl (s : State) : Works s s := ⟨Keeps.refl s, rfl, s.control.halts_refl, rfl, fun _ => rfl⟩

theorem Works.trans (h : Works s t) (k : Works t u) : Works s u where
  toKeeps := h.toKeeps.trans k.toKeeps
  links := k.links.trans h.links
  control := Control.halts_trans h.control k.control
  freeze := k.freeze.trans h.freeze
  trims := fun frozen => (k.trims ((frozen_congr h.freeze).trans frozen)).trans (h.trims frozen)

/-- Work on top of work, the later named first. -/
theorem Works.after (k : Works t u) (h : Works s t) : Works s u := h.trans k

theorem Works.halt (h : Works s t) (halt : s.control.state = .halt) : t.control.state = .halt := by
  rcases h.control with ⟨state, -⟩ | ⟨-, state, -⟩
  · exact state.trans halt
  · exact state

theorem Control.halts_working {c d : Control} (h : c.halts d) : d.state.working = c.state.working := by
  rcases h with ⟨state, -⟩ | ⟨run, halt, -⟩
  · rw [state]
  · rw [run, halt]; rfl

theorem Control.halts_config {c d : Control} (h : c.halts d) : d.state = .config ↔ c.state = .config := by
  rcases h with ⟨state, -⟩ | ⟨run, halt, -⟩
  · rw [state]
  · rw [run, halt]; decide

end

/-! ## One rule for each block -/

section
variable {s : State}

theorem Works.of_attention {a : PerLink Attention} (agrees : s.attentionAgrees → { s with attention := a }.attentionAgrees) :
    Works s { s with attention := a } :=
  ⟨⟨rfl, rfl, id, agrees, id, id, id, id⟩, rfl, s.control.halts_refl, rfl, fun _ => rfl⟩

theorem Works.of_control {k : Control} (halts : s.control.halts k) : Works s { s with control := k } where
  now := rfl
  pending := rfl
  lineStop := by
    unfold State.lineStopAgrees
    rcases halts with ⟨state, stop⟩ | ⟨-, halt, stop⟩
    · simp only [state, stop]; exact id
    · simp only [halt, stop]; simp
  attention := id
  capacity := id
  doses := id
  generations := fun ⟨complete, rest⟩ =>
    ⟨fun settled => complete (mt (Control.halts_config halts).mpr settled), rest⟩
  platform := fun ⟨h1, h2, h3, h4, h5, h6, dwell, h8⟩ =>
    ⟨h1, h2, h3, h4, h5, h6, fun w hw => ⟨(dwell w hw).1, (Control.halts_working halts).trans (dwell w hw).2⟩, h8⟩
  links := rfl
  control := halts
  freeze := rfl
  trims := fun _ => rfl

/-- The records of the queue may be marked, in their places and with their generations. -/
theorem Works.of_tracking {x : Tracking} (queue : x.queue.map CanRecord.generation = s.tracking.queue.map CanRecord.generation) :
    Works s { s with tracking := x } where
  now := rfl
  pending := rfl
  lineStop := id
  attention := id
  capacity := fun ⟨length, rest⟩ => by
    have same : x.queue.length = s.tracking.queue.length := by simpa using congrArg List.length queue
    exact ⟨same.trans_le length, rest⟩
  doses := id
  generations := fun ⟨complete, held, current, previous⟩ => by
    have same : ∀ g, carrying g x.queue = carrying g s.tracking.queue := fun g => by
      have := congrArg (List.countP (· == g)) queue
      simpa [List.countP_map, carrying, Function.comp_def] using this
    refine ⟨complete, fun c hc => ?_, fun h e => ?_, fun h e => ?_⟩
    · obtain ⟨d, hd, e⟩ := List.mem_map.mp (queue ▸ List.mem_map_of_mem (f := CanRecord.generation) hc)
      rw [← e]
      exact held d hd
    · rw [same]; exact current h e
    · rw [same]; exact previous h e
  platform := id
  links := rfl
  control := s.control.halts_refl
  freeze := rfl
  trims := fun _ => rfl

/-- The windows are counted from before the work on, since a hand-over makes room for the one it opens (R89). -/
theorem Works.then_gate {t : State} (h : Works s t) {g : GateUnit}
    (windows : s.gate.windows.length ≤ 32 → g.windows.length ≤ 32) : Works s { t with gate := g } where
  now := h.now
  pending := h.pending
  lineStop := h.lineStop
  attention := h.attention
  capacity := fun cap => by
    obtain ⟨-, -, -, -, before, -⟩ := id cap
    obtain ⟨h1, h2, h3, h4, -, rest⟩ := h.capacity cap
    exact ⟨h1, h2, h3, h4, windows before, rest⟩
  doses := h.doses
  generations := h.generations
  platform := h.platform
  links := h.links
  control := h.control
  freeze := h.freeze
  trims := h.trims

theorem Works.of_gate {g : GateUnit} (windows : s.gate.windows.length ≤ 32 → g.windows.length ≤ 32) :
    Works s { s with gate := g } := (Works.refl s).then_gate windows

/-- The can list holds its ring and no more unread summaries than the ring has (R94). -/
def CanList.fits (l : CanList) : Prop := l.ring.length ≤ 256 ∧ l.unread ≤ l.ring.length

theorem Works.of_canList {l : CanList} (fits : s.canList.fits → l.fits) : Works s { s with canList := l } where
  now := rfl
  pending := rfl
  lineStop := id
  attention := id
  capacity := fun ⟨h1, h2, h3, h4, h5, h6, h7, rest⟩ => ⟨h1, h2, h3, h4, h5, (fits ⟨h6, h7⟩).1, (fits ⟨h6, h7⟩).2, rest⟩
  doses := id
  generations := id
  platform := id
  links := rfl
  control := s.control.halts_refl
  freeze := rfl
  trims := fun _ => rfl

/-- A change of the weigh unit that leaves what the platform state stands on. -/
theorem Works.of_weigh {w : WeighUnit} (buffer : s.weigh.platform.buffer.length ≤ 24 → w.platform.buffer.length ≤ 24)
    (platform : s.platformAgrees → { s with weigh := w }.platformAgrees) : Works s { s with weigh := w } where
  now := rfl
  pending := rfl
  lineStop := id
  attention := id
  capacity := fun ⟨h1, h2, rest⟩ => ⟨h1, buffer h2, rest⟩
  doses := id
  generations := id
  platform := platform
  links := rfl
  control := s.control.halts_refl
  freeze := rfl
  trims := fun _ => rfl

/-- A change of the weigh unit outside its platform state, its figures and what the counter does. -/
theorem Works.of_weigh_same {w : WeighUnit} (platform : w.platform = s.weigh.platform)
    (conversion : w.conversion = s.weigh.conversion) (fz : w.fz = s.weigh.fz) (span : w.span = s.weigh.span) :
    Works s { s with weigh := w } :=
  .of_weigh (by rw [platform]; exact id) (by unfold State.platformAgrees; simp only [platform, conversion, fz, span]; exact id)

theorem Works.of_code {c : CodeUnit} (text : s.code.assembler.text.length ≤ 24 → c.assembler.text.length ≤ 24)
    (message : (∀ m x, s.code.message = some m → m.text = some x → x.length ≤ 24) → s.code.assembler.text.length ≤ 24 →
      ∀ m x, c.message = some m → m.text = some x → x.length ≤ 24) : Works s { s with code := c } where
  now := rfl
  pending := rfl
  lineStop := id
  attention := id
  capacity := fun ⟨h1, h2, h3, h4, rest⟩ => ⟨h1, h2, text h3, message h4 h3, rest⟩
  doses := id
  generations := id
  platform := id
  links := rfl
  control := s.control.halts_refl
  freeze := rfl
  trims := fun _ => rfl

theorem Works.of_reader {p : Port} (fifo : s.reader.rx.fifo.length ≤ 128 → p.rx.fifo.length ≤ 128) :
    Works s { s with reader := p } where
  now := rfl
  pending := rfl
  lineStop := id
  attention := id
  capacity := fun ⟨h1, h2, h3, h4, h5, h6, h7, h8, h9, h10⟩ => ⟨h1, h2, h3, h4, h5, h6, h7, h8, h9, fifo h10⟩
  doses := id
  generations := id
  platform := id
  links := rfl
  control := s.control.halts_refl
  freeze := rfl
  trims := fun _ => rfl

/-- A change of the dose unit under the freeze sources in place. -/
theorem Works.of_dose {d : DoseUnit}
    (windows : (∀ e ∈ s.dose.valves, e.netWindow.length ≤ 8) → ∀ e ∈ d.valves, e.netWindow.length ≤ 8)
    (bounded : s.doseBounded → { s with dose := d }.doseBounded) (freeze : d.freeze = s.dose.freeze)
    (trims : s.frozen = true → d.trims = s.dose.trims) : Works s { s with dose := d } where
  now := rfl
  pending := rfl
  lineStop := id
  attention := id
  capacity := fun ⟨h1, h2, h3, h4, h5, h6, h7, h8, rest⟩ => ⟨h1, h2, h3, h4, h5, h6, h7, windows h8, rest⟩
  doses := bounded
  generations := id
  platform := id
  links := rfl
  control := s.control.halts_refl
  freeze := freeze
  trims := trims

theorem Works.of_choices (n : Nat) : Works s { s with choices := n } :=
  ⟨⟨rfl, rfl, id, id, id, id, id, id⟩, rfl, s.control.halts_refl, rfl, fun _ => rfl⟩

end

/-! ## Causes (R172, R207, R209) -/

theorem Attention.raised_agrees {a : Attention} (agrees : a.backed ∧ a.ordered) (now : Moment) (c : Cause) (d : Int) :
    (a.raised now c d).backed ∧ (a.raised now c d).ordered := by
  obtain ⟨backed, ordered⟩ := agrees
  refine ⟨fun held => ?_, (putCause_of_ordered c d a.pending ordered).1⟩
  rw [raised_hold] at held
  apply List.any_eq_true.mpr
  by_cases enabled : c ∈ a.enabled
  · exact ⟨_, mem_putCause c d a.pending, decide_eq_true enabled⟩
  · rw [if_neg enabled] at held
    obtain ⟨q, pending, on⟩ := List.any_eq_true.mp (backed held)
    have other : q.cause ≠ c := fun same => enabled (same ▸ of_decide_eq_true on)
    exact ⟨q, mem_putCause_of_ne pending other, on⟩

theorem setAtt_attentionAgrees {s : State} {l : Link} {a : Attention} (agrees : s.attentionAgrees)
    (own : a.backed ∧ a.ordered) : (s.setAtt l a).attentionAgrees := fun k => by
  by_cases same : k = l
  · subst same; rwa [setAtt_att_same]
  · rw [setAtt_att_other _ _ same]; exact agrees k

theorem raiseOn_works (l : Link) (c : Cause) (d : Int) (s : State) : Works s (raiseOn l c d s) :=
  .of_attention fun agrees => setAtt_attentionAgrees agrees (Attention.raised_agrees (agrees l) s.now c d)

theorem raiseAll_eq (c : Cause) (d : Int) (s : State) :
    raiseAll c d s = raiseOn .quality c d (raiseOn .supervisor c d (raiseOn .filler c d s)) := rfl

theorem raiseAll_works (c : Cause) (d : Int) (s : State) : Works s (raiseAll c d s) := by
  rw [raiseAll_eq]
  exact ((raiseOn_works ..).trans (raiseOn_works ..)).trans (raiseOn_works ..)

theorem haltReason_works (c : Cause) (d : Int) (s : State) : Works s (haltReason c d s) := by
  rcases haltReason_cases c d s with ⟨-, e⟩ | ⟨run, e⟩ <;> rw [e]
  · exact raiseAll_works c d s
  · exact (raiseAll_works _ _ _).after ((Works.of_control (s := raiseAll c d s) (.inr ⟨run, rfl, rfl⟩)).after (raiseAll_works c d s))

/-! ## The can list and the gate (chapter 4) -/

theorem CanList.append_fits {l : CanList} (fits : l.fits) (m : CanSummary) : (l.append m).fits := by
  obtain ⟨ring, unread⟩ := fits
  refine ⟨length_append_ring l m ring, ?_⟩
  unfold CanList.append ringSize
  split
  · simp; omega
  · split <;> simp <;> omega

theorem appendSummary_works (m : CanSummary) (s : State) : Works s (appendSummary m s) := by
  unfold appendSummary
  dsimp only
  split
  · exact (raiseOn_works ..).after (.of_canList (CanList.append_fits · m))
  · exact .of_canList (CanList.append_fits · m)

theorem closePending_works (n : Serial) (b : Bool) (s : State) : Works s (closePending n b s) :=
  .of_canList fun ⟨ring, unread⟩ => ⟨by simpa using ring, by simpa using unread⟩

theorem unconfirmedClose_works (n : Serial) (s : State) : Works s (unconfirmedClose n s) := by
  have closed : Works s (closePending n true { s with gate := { s.gate with unconfirmed := satInc 255 s.gate.unconfirmed } }) :=
    (closePending_works ..).after (.of_gate id)
  unfold unconfirmedClose
  dsimp only
  split
  · exact closed.trans (haltReason_works ..)
  · exact closed

/-- There is room for a window once the oldest of 32 has closed (R89). -/
theorem makeWindowRoom_windows (s : State) :
    (makeWindowRoom s).gate.windows = if 32 ≤ s.gate.windows.length then s.gate.windows.tail else s.gate.windows := by
  unfold makeWindowRoom maxWindows
  split
  · next e => rw [e]; rfl
  · next w rest e =>
    rw [e]
    split
    · next full =>
      obtain ⟨g, l, a, k, h⟩ := unconfirmedClose_frame w.serial { s with gate := { s.gate with windows := rest } }
      have windows : (unconfirmedClose w.serial { s with gate := { s.gate with windows := rest } }).gate.windows = rest := by
        unfold unconfirmedClose
        dsimp only
        split
        · obtain ⟨_, _, e'⟩ := haltReason_frame .rejectFault w.serial.toNat (closePending w.serial true
            { s with gate := { s.gate with windows := rest, unconfirmed := satInc 255 s.gate.unconfirmed } })
          rw [e']; rfl
        · rfl
      rw [windows]; rfl
    · exact e

theorem makeWindowRoom_works (s : State) : Works s (makeWindowRoom s) := by
  unfold makeWindowRoom
  split
  · exact .refl s
  · next w rest e =>
    split
    · exact (unconfirmedClose_works ..).after (.of_gate fun h => by rw [e] at h; exact Nat.le_of_succ_le h)
    · exact .refl s

theorem openWindow_works (L : Layout) (n : Serial) (s : State) : Works s (openWindow L n s) := by
  have room : Works s (makeWindowRoom s) := makeWindowRoom_works s
  have windows (before : s.gate.windows.length ≤ 32) : (makeWindowRoom s).gate.windows.length ≤ 31 := by
    rw [makeWindowRoom_windows]
    split
    · rw [List.length_tail]; omega
    · omega
  unfold openWindow
  dsimp only
  split
  · exact room.then_gate fun before => (windows before).trans (by decide)
  · exact room.then_gate fun before => by simpa using Nat.lt_succ_of_le (windows before)

theorem driveFor_works (L : Layout) (n : Serial) (b : Bool) (s : State) : Works s (driveFor L n b s) := by
  unfold driveFor
  split
  · exact (openWindow_works ..).after (.of_gate id)
  · exact .refl s

theorem satisfyWindows_works (s : State) : Works s (satisfyWindows s) :=
  (Works.of_canList (s := { s with gate := (satisfyWindows s).gate })
      fun ⟨ring, unread⟩ => ⟨by simpa using ring, by simpa using unread⟩).after
    (.of_gate fun _ => Nat.zero_le 32)

theorem expireWindow_works (s : State) : Works s (expireWindow s) := by
  unfold expireWindow
  split
  · exact .refl s
  · exact (unconfirmedClose_works ..).after (.of_gate fun h => List.length_erase_le.trans h)

end Sys2Proof.Machine

/-! What the dose unit's work keeps (chapters 5 and 6). -/

namespace Sys2Proof.Machine

/-! ## The dose unit (chapters 5 and 6) -/

theorem accBound_nonneg (s : State) : 0 ≤ s.accBound := by
  unfold State.accBound
  cases s.recipe with
  | none => exact le_rfl
  | some r => exact accLimit_nonneg r

section
variable {s : State} {v : Nat}

/-- An entry that is in the table, or beyond its end. -/
theorem valve_mem_or_reset (s : State) (v : Nat) : s.valve v ∈ s.dose.valves ∨ s.valve v = Valve.reset := by
  unfold State.valve
  by_cases place : v - 1 < s.dose.valves.length
  · rw [List.getD_eq_getElem _ _ place]; exact .inl (List.getElem_mem place)
  · rw [List.getD_eq_default _ _ (by omega)]; exact .inr rfl

theorem accumulator_valve_bounded (bounded : s.doseBounded) (v : Nat) :
    -s.accBound ≤ (s.valve v).accumulator ∧ (s.valve v).accumulator ≤ s.accBound := by
  obtain ⟨-, -, -, within, -⟩ := bounded
  rcases valve_mem_or_reset s v with mem | reset
  · exact within _ mem
  · rw [reset]; have := accBound_nonneg s; exact ⟨by simp [Valve.reset]; omega, by simpa [Valve.reset] using this⟩

/-- A valve that is not UNUSED stands among those in use (R128, R131). -/
theorem place_lt_of_used (bounded : s.doseBounded) (used : (s.valve v).state ≠ .unused) : v - 1 < s.valveCount := by
  obtain ⟨-, -, above, -⟩ := bounded
  by_contra beyond
  refine used ?_
  have entry : s.valve v = Valve.reset := by
    rcases lt_or_ge (v - 1) s.dose.valves.length with place | place
    · refine above _ ?_
      rw [State.valve, List.getD_eq_getElem _ _ place]
      exact List.mem_drop_iff_getElem.mpr ⟨v - 1 - s.valveCount, by omega, by congr 1; omega⟩
    · exact List.getD_eq_default _ _ place
  rw [entry]; rfl

/-- A valve in range is not UNUSED (R128). -/
theorem used_of_inRange (bounded : s.doseBounded) (first : 1 ≤ v) (last : v ≤ s.valveCount) :
    (s.valve v).state ≠ .unused := by
  obtain ⟨whole, used, -⟩ := bounded
  exact used _ (List.mem_of_getElem? (valve_eq_of_inUse whole first last))

/-- One entry of the table is replaced by one in service (R98, R128). -/
theorem doseBounded_setValve {e : Valve} (bounded : s.doseBounded) (used : (s.valve v).state ≠ .unused)
    (inService : e.state ≠ .unused) (within : -s.accBound ≤ e.accumulator ∧ e.accumulator ≤ s.accBound) :
    (s.setValve v e).doseBounded := by
  have place := place_lt_of_used bounded used
  obtain ⟨⟨length, count⟩, inUse, above, acc, line⟩ := bounded
  refine ⟨⟨by simpa [State.setValve] using length, count⟩, fun x hx => ?_, fun x hx => ?_, fun x hx => ?_, line⟩
  · have hx : x ∈ (s.dose.valves.set (v - 1) e).take s.valveCount := hx
    rw [List.take_set] at hx
    rcases List.mem_or_eq_of_mem_set hx with old | rfl
    · exact inUse x old
    · exact inService
  · have hx : x ∈ (s.dose.valves.set (v - 1) e).drop s.valveCount := hx
    rw [List.drop_set_of_lt place] at hx
    exact above x hx
  · rcases List.mem_or_eq_of_mem_set hx with old | rfl
    · exact acc x old
    · exact within

theorem trims_setValve {e : Valve} (same : e.accumulator = (s.valve v).accumulator) :
    (s.setValve v e).dose.trims = s.dose.trims := by
  unfold DoseUnit.trims State.setValve
  simp only [List.map_set, same, State.valve]
  congr 1
  apply List.ext_getElem?
  intro i
  rw [List.getElem?_set]
  split
  · next here =>
    subst here
    by_cases place : v - 1 < s.dose.valves.length
    · simp [place]
    · simp [place]
  · rfl

/-- The rule for one entry of the table. -/
theorem setValve_works {e : Valve} (used : s.doseBounded → (s.valve v).state ≠ .unused)
    (inService : (s.valve v).state ≠ .unused → e.state ≠ .unused)
    (window : (s.valve v).netWindow.length ≤ 8 → e.netWindow.length ≤ 8)
    (within : s.doseBounded → -s.accBound ≤ e.accumulator ∧ e.accumulator ≤ s.accBound)
    (trims : s.frozen = true → e.accumulator = (s.valve v).accumulator) : Works s (s.setValve v e) :=
  .of_dose
    (fun windows x hx => by
      rcases List.mem_or_eq_of_mem_set hx with old | rfl
      · exact windows x old
      · refine window ?_
        rcases valve_mem_or_reset s v with mem | reset
        · exact windows _ mem
        · rw [reset]; exact Nat.zero_le 8)
    (fun bounded => doseBounded_setValve bounded (used bounded) (inService (used bounded)) (within bounded)) rfl
    (fun frozen => trims_setValve (trims frozen))

/-- An entry in service is replaced by one in service with its accumulator and its net window. -/
theorem setValve_works_of_same {e : Valve} (used : s.doseBounded → (s.valve v).state ≠ .unused)
    (inService : (s.valve v).state ≠ .unused → e.state ≠ .unused) (window : e.netWindow = (s.valve v).netWindow)
    (acc : e.accumulator = (s.valve v).accumulator) : Works s (s.setValve v e) :=
  setValve_works used inService (by rw [window]; exact id) (by rw [acc]; exact (accumulator_valve_bounded · v)) fun _ => acc

theorem serveDose_works (l : Link) (used : s.doseBounded → (s.valve v).state ≠ .unused) : Works s (serveDose l v s) := by
  unfold serveDose
  split
  · exact setValve_works_of_same used id rfl rfl
  · exact .refl s

theorem countHandOver_works (c : CanRecord) (b : Bool) (s : State) : Works s (countHandOver c b s) := by
  unfold countHandOver
  split
  · exact .refl s
  · split
    · exact .refl s
    · next used => exact setValve_works_of_same (fun _ => used) id rfl rfl

theorem setValveState_works {st : ValveState} (used : s.doseBounded → (s.valve v).state ≠ .unused) (inService : st ≠ .unused) :
    Works s (setValveState v st s) :=
  setValve_works_of_same used (fun _ => inService) rfl rfl

theorem faultBlock_works (used : s.doseBounded → (s.valve v).state ≠ .unused) : Works s (faultBlock v s) := by
  unfold faultBlock
  split
  · exact .refl s
  · exact setValveState_works used nofun

theorem probationOrActive_used (n : Nat) : probationOrActive n ≠ .unused := by
  unfold probationOrActive; split <;> exact nofun

theorem releaseValve_works (used : s.doseBounded → (s.valve v).state ≠ .unused) : Works s (releaseValve v s) :=
  setValve_works_of_same used (fun _ => probationOrActive_used _) rfl rfl

/-! ### The control update (R106 to R118) -/

theorem integrate_accumulator_bounded {r : Recipe} {net : Int} {e : Valve}
    (within : -accLimit r ≤ e.accumulator ∧ e.accumulator ≤ accLimit r) :
    -accLimit r ≤ (integrate r net e).accumulator ∧ (integrate r net e).accumulator ≤ accLimit r := by
  rcases le_or_gt (errorOf r net).natAbs r.deadBand with dead | live
  · rw [integrate_of_dead dead]; exact within
  · rw [integrate_accumulator live]; have := accLimit_nonneg r; omega

theorem enterNet_netWindow_length {net : Int} {e : Valve} (full : e.netWindow.length ≤ 8) :
    (enterNet net e).netWindow.length ≤ 8 := by
  unfold enterNet
  split
  · simp; omega
  · simp; omega

theorem updatedValve_used {r : Recipe} {net : Int} {e : Valve} (used : e.state ≠ .unused) :
    (updatedValve r net e).state ≠ .unused := by
  rw [updatedValve_eq]
  have suspected : (suspectStep r (updatedRuns r net e)).state ≠ .unused := by
    unfold suspectStep
    split
    · exact nofun
    · rwa [updatedRuns_state]
  unfold probationStep
  split
  · dsimp only
    split <;> exact probationOrActive_used _
  · exact suspected

/-- A move that R116 and R117 allow keeps the bounds. -/
theorem doseBounded_applyMove {r : Recipe} {c : Int} (recipe : s.recipe = some r) (bounded : s.doseBounded)
    (allowed : allowedMove r s.dose.lineOffset s.inUse c) : (applyMove r c s).doseBounded := by
  obtain ⟨⟨length, count⟩, inUse, above, within, -⟩ := bounded
  obtain ⟨kept, offset⟩ := allowed
  have used : (s.inUse.map (Valve.moved r c)).length = s.valveCount := by simp [State.inUse]; omega
  have take : (applyMove r c s).inUse = s.inUse.map (Valve.moved r c) :=
    (congrArg _ (applyMove_valves r c s)).trans (List.take_left' used)
  have drop : (applyMove r c s).dose.valves.drop s.valveCount = s.dose.valves.drop s.valveCount :=
    (congrArg _ (applyMove_valves r c s)).trans (List.drop_left' used)
  have acc : (applyMove r c s).accBound = accLimit r := by
    show s.accBound = _
    simp [State.accBound, recipe]
  have line : (applyMove r c s).lineBound = r.lineLimit := by
    show s.lineBound = _
    simp [State.lineBound, recipe]
  refine ⟨⟨?_, count⟩, ?_, ?_, ?_, ?_⟩
  · rw [applyMove_valves, List.length_append, used, List.length_drop]; omega
  · rw [take]
    intro e he
    obtain ⟨x, hx, rfl⟩ := List.mem_map.mp he
    exact inUse x hx
  · intro e he
    exact above e (drop ▸ he)
  · rw [applyMove_valves, acc]
    intro e he
    rcases List.mem_append.mp he with moved | rest
    · obtain ⟨x, hx, rfl⟩ := List.mem_map.mp moved
      exact kept x hx
    · have := within e (List.mem_of_mem_drop rest)
      rwa [show s.accBound = accLimit r from acc] at this
  · rw [line]; exact offset

theorem centeringStep_works {r : Recipe} (recipe : s.recipe = some r) (thawed : s.frozen = false) :
    Works s (centeringStep r s) := by
  refine .of_dose (fun windows e he => ?_)
    (fun bounded => doseBounded_applyMove recipe bounded (allowedMove_centeringMove (allowedMove_zero recipe bounded))) rfl
    fun frozen => absurd frozen (by simp [thawed])
  rcases List.mem_append.mp he with moved | above
  · obtain ⟨x, hx, rfl⟩ := List.mem_map.mp moved
    exact windows x (List.mem_of_mem_take hx)
  · exact windows e (List.mem_of_mem_drop above)

theorem centeringCount_works {r : Recipe} (recipe : s.recipe = some r) (thawed : s.frozen = false) :
    Works s (centeringCount r s) := by
  have counted (n : Nat) : Works s { s with dose := { s.dose with centering := n } } := .of_dose id id rfl fun _ => rfl
  unfold centeringCount
  split
  · exact (centeringStep_works (s := { s with dose := { s.dose with centering := 0 } }) recipe thawed).after (counted 0)
  · exact counted _

theorem controlUpdate_works {r : Recipe} {net : Int} (recipe : s.recipe = some r) (thawed : s.frozen = false)
    (used : (s.valve v).state ≠ .unused) : Works s (controlUpdate r v net s) := by
  have acc : s.accBound = accLimit r := by simp [State.accBound, recipe]
  have entry : Works s (s.setValve v (updatedValve r net (s.valve v))) :=
    setValve_works (fun _ => used) updatedValve_used
      (fun full => by rw [updatedValve_netWindow]; exact enterNet_netWindow_length full)
      (fun bounded => by
        have within := accumulator_valve_bounded bounded v
        rw [acc] at within ⊢
        rw [updatedValve_accumulator]
        exact integrate_accumulator_bounded within)
      (fun frozen => by simp [thawed] at frozen)
  have raised : Works s (entryUpdated r v net s) := by
    unfold entryUpdated raisedByUpdate
    dsimp only
    split <;> split
    · exact (raiseAll_works ..).after ((raiseAll_works ..).after entry)
    · exact (raiseAll_works ..).after entry
    · exact (raiseAll_works ..).after entry
    · exact entry
  have frame := entryUpdated_frame r v net s
  rw [controlUpdate_eq]
  refine (centeringCount_works ?_ ?_).after raised
  · rw [frame]; exact recipe
  · rw [← thawed]; exact frozen_congr raised.freeze

theorem steered_used {x : ValveState} (steered : x.steered = true) : x ≠ .unused := by rintro rfl; cases steered

theorem controlReading_works (v : Nat) (g : Generation) (fs : FillStatus) (net : Int) (s : State) :
    Works s (controlReading v g fs net s) := by
  unfold controlReading
  split
  · exact .refl s
  · next h current =>
    split
    · next admitted =>
      obtain ⟨-, -, steered, thawed⟩ := admitted
      exact controlUpdate_works (by simp [State.recipe, current]) (by simpa using thawed) (steered_used steered)
    · exact .refl s

end

/-! ## The weigh unit (chapter 2) -/

theorem calDone_works (o : CaptureOutcome) (s : State) : Works s (calDone o s) := raiseOn_works ..

theorem endCapture_works (c : Capture) (s : State) : Works s (endCapture c s) :=
  (calDone_works ..).after (.of_weigh_same rfl rfl rfl rfl)

theorem abortCapture_works (cause : AbortCause) (s : State) : Works s (abortCapture cause s) := by
  unfold abortCapture
  split
  · exact endCapture_works ..
  · exact .refl s

theorem beginCapture_works (k : CaptureKind) (m : Option Nat) (s : State) : Works s (beginCapture k m s) :=
  .of_weigh_same rfl rfl rfl rfl

theorem beginZeroCapture_works (s : State) : Works s (beginZeroCapture s) := by
  unfold beginZeroCapture
  dsimp only
  split
  · exact (abortCapture_works ..).after (beginCapture_works ..)
  · exact beginCapture_works ..

section
variable {s : State}

/-- A calibration record is changed in its place. -/
theorem Works.of_calibration (f : Calibration → Calibration) :
    Works s { s with store := { s.store with calibration := s.store.calibration.map f } } where
  now := rfl
  pending := rfl
  lineStop := id
  attention := id
  capacity := id
  doses := id
  generations := fun ⟨complete, rest⟩ => ⟨fun settled => by simpa [Store.complete] using complete settled, rest⟩
  platform := fun ⟨record, rest⟩ => ⟨by simpa using record, rest⟩
  links := rfl
  control := s.control.halts_refl
  freeze := rfl
  trims := fun _ => rfl

/-- Outside IDLE the working figures may be replaced by others. -/
theorem Works.of_figures {w : WeighUnit} (outside : s.weigh.platform ≠ .idle) (platform : w.platform = s.weigh.platform)
    (conversion : w.conversion = s.weigh.conversion) (fz : w.fz = s.weigh.fz ∨ w.fz.isSome)
    (span : w.span = s.weigh.span ∨ w.span.isSome) : Works s { s with weigh := w } := by
  refine .of_weigh (by rw [platform]; exact id) ?_
  rintro ⟨record, counter, zero, slope, rest⟩
  unfold State.platformAgrees
  simp only [platform, conversion]
  refine ⟨record, counter, ?_, ?_, rest⟩
  · rcases fz with same | present
    · rw [same]; exact zero
    · exact iff_of_false outside (Option.isSome_iff_ne_none.mp present)
  · rcases span with same | present
    · rw [same]; exact slope
    · exact iff_of_false outside (Option.isSome_iff_ne_none.mp present)

theorem takeIntoCapture_works (f : Nat) (outside : s.weigh.platform ≠ .idle) : Works s (takeIntoCapture f s) := by
  unfold takeIntoCapture
  dsimp only
  split
  · split
    · exact (endCapture_works ..).after ((Works.of_calibration _).after (.of_figures outside rfl rfl (.inr rfl) (.inl rfl)))
    · unfold completeSpan
      dsimp only
      split
      · exact endCapture_works ..
      · exact (endCapture_works ..).after ((Works.of_calibration _).after (.of_figures outside rfl rfl (.inl rfl) (.inr rfl)))
  · exact .of_weigh_same rfl rfl rfl rfl

theorem zeroTrack_works (f : Nat) (s : State) : Works s (zeroTrack f s) := by
  unfold zeroTrack
  split
  · exact .refl s
  · next fz held =>
    dsimp only
    split
    · refine .of_weigh id ?_
      rintro ⟨record, counter, zero, rest⟩
      exact ⟨record, counter, by simpa [held] using zero, rest⟩
    · split
      · exact (raiseAll_works ..).after (.of_weigh_same rfl rfl rfl rfl)
      · exact .of_weigh_same rfl rfl rfl rfl

theorem countSettle_works (s : State) : Works s (countSettle s) := by
  unfold countSettle
  split
  · exact .refl s
  · exact .of_weigh_same rfl rfl rfl rfl

theorem countSettle_platform (s : State) : (countSettle s).weigh.platform = s.weigh.platform := by
  unfold countSettle
  split <;> rfl

theorem emptyConversion_works (f : Nat) (outside : s.weigh.platform ≠ .idle) : Works s (emptyConversion f s) := by
  have settle := countSettle_works s
  have taken : Works s (takeIntoCapture f (countSettle s)) :=
    (takeIntoCapture_works f (by rwa [countSettle_platform])).after settle
  unfold emptyConversion
  dsimp only
  split
  · split
    · split
      · exact taken
      · exact settle
    · exact taken
  · split
    · exact (zeroTrack_works ..).after settle
    · exact settle

/-- A weighing in progress is replaced by another. -/
theorem Works.of_weighing {w x : Weighing} (dwell : s.weigh.platform = .dwell w) {u : WeighUnit}
    (buffer : w.buffer.length ≤ 24 → x.buffer.length ≤ 24) (platform : u.platform = .dwell x)
    (conversion : u.conversion = s.weigh.conversion) (fz : u.fz = s.weigh.fz) (span : u.span = s.weigh.span) :
    Works s { s with weigh := u } := by
  refine .of_weigh (by rw [dwell, platform]; exact buffer) ?_
  unfold State.platformAgrees
  simp only [dwell, platform, conversion, fz, span]
  rintro ⟨h1, h2, h3, h4, h5, h6, h7, h8⟩
  exact ⟨by simpa using h1, by simpa using h2, by simpa using h3, by simpa using h4, nofun, nofun, fun _ _ => h7 w rfl,
    fun held => absurd (h8 held) nofun⟩

theorem Weighing.collect_buffer (w : Weighing) (gross : Int) (flagged : Bool) (full : w.buffer.length ≤ 24) :
    (w.collect gross flagged).buffer.length ≤ 24 := by
  unfold Weighing.collect placeWeight dwellSize
  split
  · exact full
  · split
    · exact full
    · dsimp only
      split
      · simp; omega
      · simp; omega

theorem dwellConversion_works (f : Nat) {w : Weighing} (dwell : s.weigh.platform = .dwell w) :
    Works s (dwellConversion f w s) :=
  .of_weighing (x := w.collect _ _) dwell (Weighing.collect_buffer w _ _) rfl rfl rfl rfl

theorem validConversion_works (f : Nat) (s : State) : Works s (validConversion f s) := by
  have noted : Works s (s.setWeigh { s.weigh with latest := some f, cellRun := 0, cellFault := false }) :=
    .of_weigh_same rfl rfl rfl rfl
  unfold validConversion
  dsimp only
  split
  · exact noted
  · next empty => exact (emptyConversion_works f (by rw [empty]; exact nofun)).after noted
  · next w dwell =>
    exact (dwellConversion_works f dwell).after noted
  · next waits =>
    unfold waitClearConversion
    split
    · exact (takeIntoCapture_works f (by rw [waits]; exact nofun)).after noted
    · exact noted

theorem invalidConversion_works (m : InvalidMark) (s : State) : Works s (invalidConversion m s) := by
  unfold invalidConversion
  split
  · refine (haltReason_works ..).after ?_
    cases at_ : s.weigh.platform with
    | dwell w => exact .of_weighing (x := { w with mark := true }) at_ id rfl rfl rfl rfl
    | _ => exact .of_weigh_same (by rw [at_]; rfl) rfl rfl rfl
  · exact .of_weigh_same rfl rfl rfl rfl

theorem completeConversion_works (s : State) : Works s (completeConversion s) := by
  have counted : Works s (s.setWeigh { s.weigh with period := 0 }) := .of_weigh_same rfl rfl rfl rfl
  unfold completeConversion
  split
  · dsimp only
    split
    · exact (validConversion_works ..).after counted
    · exact (invalidConversion_works ..).after counted
  · exact .refl s

/-- The period counter turns from one kind of counting to another. -/
theorem Works.of_counting {w : WeighUnit} (counts : s.weigh.conversion ≠ .stopped) (platform : w.platform = s.weigh.platform)
    (conversion : w.conversion ≠ .stopped) (fz : w.fz = s.weigh.fz) (span : w.span = s.weigh.span) :
    Works s { s with weigh := w } := by
  refine .of_weigh (by rw [platform]; exact id) ?_
  rintro ⟨record, counter, rest⟩
  unfold State.platformAgrees
  simp only [platform, fz, span]
  exact ⟨record, by rw [counter]; exact iff_of_false counts conversion, rest⟩

theorem overflowConversion_works (s : State) : Works s (overflowConversion s) := by
  unfold overflowConversion
  split
  · next due =>
    have counts : s.weigh.conversion ≠ .stopped := by
      unfold overflowDue at due
      simp only [Bool.and_eq_true, bne_iff_ne] at due
      exact due.1
    exact (invalidConversion_works ..).after (.of_counting counts rfl nofun rfl rfl)
  · exact .refl s

theorem startConversion_works (s : State) : Works s (startConversion s) := by
  unfold startConversion
  split
  · next waits => exact .of_counting (by rw [waits]; exact nofun) rfl nofun rfl rfl
  · exact .refl s

end

end Sys2Proof.Machine

/-! What the tracking unit's work, the posts, the hand-overs and the flushes keep (chapters 1, 2, 4 and 7). -/

namespace Sys2Proof.Machine

/-! ## Marks on the records of the queue -/

/-- A mark that leaves the generation of a record. -/
theorem generation_mapFirst (f : CanRecord → CanRecord) (same : ∀ c, (f c).generation = c.generation)
    (p : CanRecord → Bool) (q : List CanRecord) :
    (mapFirst p f q).map CanRecord.generation = q.map CanRecord.generation := by
  induction q with
  | nil => rfl
  | cons c rest ih => unfold mapFirst; split <;> simp [same, ih]

theorem generation_markMissed (late : CanRecord → Bool) (q : List CanRecord) :
    (markMissed late q).map CanRecord.generation = q.map CanRecord.generation := by
  induction q with
  | nil => rfl
  | cons c rest ih =>
    have same : c.markedMissed.generation = c.generation := rfl
    unfold markMissed
    split
    · split
      · simp [same, ih]
      · rfl
    · simp [ih]

theorem generation_markUnread (st : Store) (late : CanRecord → Bool) (q : List CanRecord) :
    (markUnread st late q).map CanRecord.generation = q.map CanRecord.generation := by
  induction q with
  | nil => rfl
  | cons c rest ih =>
    have same : (c.readAs st none .noRead).generation = c.generation := rfl
    unfold markUnread
    split
    · split
      · simp [same, ih]
      · rfl
    · simp [ih]

/-! ## The slip run and the passes (R17 to R21, R29) -/

theorem slipAdd_works (L : Layout) (s : State) : Works s (slipAdd L s) := by
  have counted : Works s (s.setTracking { s.tracking with slip := satInc 255 s.tracking.slip }) := .of_tracking rfl
  unfold slipAdd
  dsimp only
  split
  · exact (haltReason_works ..).after counted
  · exact counted

theorem iterate_slipAdd_works (L : Layout) (n : Nat) (s : State) : Works s (iterate (slipAdd L) n s) := by
  induction n generalizing s with
  | zero => exact .refl s
  | succ n ih => exact (ih _).after (slipAdd_works L s)

theorem slipZero_works (s : State) : Works s (slipZero s) := .of_tracking rfl

theorem platformPass_works (L : Layout) (s : State) : Works s (platformPass L s) := by
  have marked : Works s (s.setQueue (markMissed (pastPlatform L s.tracking.position) s.tracking.queue)) :=
    .of_tracking (generation_markMissed ..)
  unfold platformPass
  dsimp only
  split
  · exact (iterate_slipAdd_works ..).after marked
  · exact marked

theorem readPass_works (L : Layout) (s : State) : Works s (readPass L s) := .of_tracking (generation_markUnread ..)

/-! ## The post of a reading (R51) -/

theorem handToDose_works (rd : Reading) (c : CanRecord) (s : State) : Works s (handToDose rd c s) := by
  unfold handToDose
  split
  · exact controlReading_works ..
  · exact .refl s

theorem post_works (w : Weighing) (res : WeighResult) (s : State) : Works s (post w res s) := by
  unfold post
  split
  · exact .refl s
  · unfold postTo
    split
    · exact .refl s
    · exact (handToDose_works ..).after (.of_tracking (generation_mapFirst (postedRecord s _) (fun _ => rfl) _ _))

/-- A weighing in progress gives way to WAIT_CLEAR: the eye is still blocked (R37). -/
theorem dwell_to_waitClear_works {s : State} {w : Weighing} (dwell : s.weigh.platform = .dwell w) :
    Works s (s.setWeigh { s.weigh with platform := .waitClear }) := by
  refine .of_weigh (fun _ => Nat.zero_le 24) ?_
  unfold State.platformAgrees
  simp only [dwell]
  rintro ⟨h1, h2, h3, h4, -, -, h7, h8⟩
  exact ⟨by simpa using h1, by simpa using h2, by simpa using h3, by simpa using h4, nofun, fun _ => (h7 w rfl).1, nofun,
    fun held => absurd (h8 held) nofun⟩

theorem endWithCause_works (cause : NoReadingCause) (s : State) : Works s (endWithCause cause s) := by
  unfold endWithCause
  split
  · next w dwell => exact (post_works ..).after (dwell_to_waitClear_works dwell)
  · exact .refl s

theorem discardWeighing_works (s : State) : Works s (discardWeighing s) := by
  unfold discardWeighing
  split
  · next w dwell => exact dwell_to_waitClear_works dwell
  · exact .refl s

theorem endWithCause_platform (cause : NoReadingCause) (s : State) (w : Weighing) :
    (endWithCause cause s).weigh.platform ≠ .dwell w := by
  unfold endWithCause
  split
  · next x dwell =>
    obtain ⟨_, _, _, e⟩ := post_frame x (.nothing cause) (s.setWeigh { s.weigh with platform := .waitClear })
    rw [e]
    exact nofun
  · next other => exact other w

/-! ## Departures (R158, R162) -/

/-- What a departure of the head does to the agreement of the store and the queue: the queue has lost the record already. -/
theorem generationsAgree_departed {c : CanRecord} {rest : List CanRecord} {s : State} (queue : s.tracking.queue = rest)
    (agree : (s.setQueue (c :: rest)).generationsAgree) : (departed c.generation s).generationsAgree := by
  obtain ⟨complete, held, current, previous⟩ := agree
  simp only [setQueue_store, setQueue_control, setQueue_tracking, carrying_cons] at complete held current previous
  have distinct : ∀ g : Generation, g - 1 ≠ g - 2 := by decide
  rcases departed_cases c.generation s with ⟨h, prev, gen, last, e⟩ | ⟨h, prev, gen, more, e⟩ | ⟨other, e⟩
  · -- the last record of the previous recipe departs, and the recipe is retired
    obtain ⟨count, -, -, there⟩ := previous h prev
    rw [if_pos gen.symm] at count
    have none_left : carrying h.generation rest = 0 := by omega
    have gone : ∀ x ∈ rest, x.generation ≠ h.generation := fun x hx same => by
      have := List.countP_eq_zero.mp none_left x hx
      simp [same] at this
    obtain ⟨k, cur⟩ := Option.ne_none_iff_exists'.mp there
    rw [e]
    refine ⟨fun settled => complete settled, fun x hx => ?_, fun k' cur' => ?_, nofun⟩
    · have hx : x ∈ rest := queue ▸ hx
      rcases held x (List.mem_cons_of_mem _ hx) with now_ | ⟨h', prev', same⟩
      · exact .inl now_
      · rw [prev] at prev'; obtain rfl := Option.some.inj prev'
        exact absurd same (gone x hx)
    · obtain ⟨count', gen'⟩ := current k' cur'
      have apart : ¬c.generation = k'.generation := by
        obtain ⟨-, -, gen2, -⟩ := previous h prev
        rw [← gen, gen2, gen']
        exact (distinct _).symm
      rw [if_neg apart] at count'
      exact ⟨by rw [count', Nat.add_zero, ← queue]; rfl, gen'⟩
  · -- another record of the previous recipe departs
    obtain ⟨count, -, gen2, there⟩ := previous h prev
    rw [if_pos gen.symm] at count
    rw [e]
    refine ⟨fun settled => complete settled, fun x hx => ?_, fun k cur => ?_, fun h' prev' => ?_⟩
    · have hx : x ∈ rest := queue ▸ hx
      rcases held x (List.mem_cons_of_mem _ hx) with now_ | ⟨h', prev', same⟩
      · exact .inl now_
      · rw [prev] at prev'; obtain rfl := Option.some.inj prev'
        exact .inr ⟨_, rfl, same⟩
    · obtain ⟨count', gen'⟩ := current k cur
      have apart : ¬c.generation = k.generation := by
        rw [← gen, gen2, gen']
        exact (distinct _).symm
      rw [if_neg apart] at count'
      exact ⟨by rw [count', Nat.add_zero, ← queue], gen'⟩
    · obtain rfl := Option.some.inj prev'
      exact ⟨by rw [count, queue]; rfl, by dsimp only; omega, gen2, there⟩
  · -- a record of the current recipe departs
    have mine : ∃ k, s.store.current = some k ∧ c.generation = k.generation := by
      rcases held c List.mem_cons_self with mine | ⟨h, prev, same⟩
      · exact mine
      · exact absurd same.symm (other h prev)
    obtain ⟨k, cur, same⟩ := mine
    obtain ⟨count, gen⟩ := current k cur
    rw [if_pos same] at count
    rw [e]
    simp only [cur, Option.map_some, if_pos same.symm]
    refine ⟨fun settled => ?_, fun x hx => ?_, fun k' cur' => ?_, fun h prev => ?_⟩
    · have := complete settled
      simpa [Store.complete, cur] using this
    · have hx : x ∈ rest := queue ▸ hx
      rcases held x (List.mem_cons_of_mem _ hx) with ⟨k', cur', same'⟩ | before
      · rw [cur] at cur'; obtain rfl := Option.some.inj cur'
        exact .inl ⟨_, rfl, same'⟩
      · exact .inr before
    · obtain rfl := Option.some.inj cur'
      exact ⟨by dsimp only; rw [count, queue]; rfl, gen⟩
    · obtain ⟨count', pos, gen', -⟩ := previous h prev
      rw [if_neg (fun e => other h prev e.symm)] at count'
      exact ⟨by rw [count', Nat.add_zero, ← queue], pos, gen', nofun⟩

/-- A departure touches the attention states and the generation counts alone. -/
theorem departed_recipe (g : Generation) (s : State) : (departed g s).recipe = s.recipe := by
  rcases departed_cases g s with ⟨_, _, _, _, e⟩ | ⟨_, _, _, _, e⟩ | ⟨_, e⟩ <;> rw [e]
  · rfl
  · rfl
  · unfold State.recipe
    cases s.store.current with
    | none => rfl
    | some h => simp only [Option.map_some]; split <;> rfl

theorem departed_records (g : Generation) (s : State) :
    (departed g s).store.layout = s.store.layout ∧ (departed g s).store.calibration = s.store.calibration := by
  rcases departed_cases g s with ⟨_, _, _, _, e⟩ | ⟨_, _, _, _, e⟩ | ⟨_, e⟩ <;> rw [e] <;> exact ⟨rfl, rfl⟩

/-- The bounds of the dose unit stand on the unit, the layout record and the current recipe alone. -/
theorem doseBounded_congr {s t : State} (dose : t.dose = s.dose) (layout : t.store.layout = s.store.layout)
    (recipe : t.recipe = s.recipe) : t.doseBounded ↔ s.doseBounded := by
  unfold State.doseBounded State.tableWhole State.inUse State.valveCount State.accBound State.lineBound
  rw [dose, layout, recipe]

/-- The agreement of the platform state stands on the weigh unit, the calibration record, the pins, the operating state and the
reset pin alone. -/
theorem platformAgrees_congr {s t : State} (weigh : t.weigh = s.weigh)
    (calibration : t.store.calibration = s.store.calibration) (eye : t.pins.eye = s.pins.eye)
    (state : t.control.state = s.control.state) (held : t.resetHeld = s.resetHeld) : t.platformAgrees ↔ s.platformAgrees := by
  unfold State.platformAgrees
  rw [weigh, calibration, eye, state, held]

theorem departed_setQueue (g : Generation) (q : List CanRecord) (s : State) :
    (departed g s).setQueue q = departed g (s.setQueue q) := by
  unfold departed
  rw [setQueue_store]
  split
  · split
    · split <;> rfl
    · rfl
  · rfl

theorem appendSummary_setQueue (m : CanSummary) (q : List CanRecord) (s : State) :
    (appendSummary m s).setQueue q = appendSummary m (s.setQueue q) := by
  unfold appendSummary
  rw [setQueue_canList]
  dsimp only
  split <;> rfl

/-- The head of the queue departs after work without it, which leaves the store. -/
theorem Works.depart {s t : State} {c : CanRecord} {rest : List CanRecord} (queue : s.tracking.queue = c :: rest)
    (h : Works (s.setQueue rest) t) (store : t.store = s.store) (left : t.tracking.queue = rest) :
    Works s (departed c.generation t) := by
  have raised : t.attentionAgrees → (departed c.generation t).attentionAgrees := by
    rcases departed_cases c.generation t with ⟨_, _, _, _, e⟩ | ⟨_, _, _, _, e⟩ | ⟨_, e⟩ <;> rw [e]
    · exact (raiseOn_works ..).attention
    · exact id
    · exact id
  have agrees : s.generationsAgree → (departed c.generation t).generationsAgree := fun ⟨complete, rest_⟩ => by
    refine generationsAgree_departed left ⟨fun settled => ?_, ?_⟩
    · rw [setQueue_store, store]
      exact complete (mt (Control.halts_config h.control).mpr settled)
    · rw [setQueue_store, store, setQueue_tracking, ← queue]; exact rest_
  have recipe := departed_recipe c.generation t
  obtain ⟨layout, calibration⟩ := departed_records c.generation t
  obtain ⟨a, st, e⟩ := departed_frame c.generation t
  rw [e] at raised agrees recipe layout calibration ⊢
  exact {
    now := h.now
    pending := h.pending
    lineStop := h.lineStop
    attention := raised ∘ h.attention
    capacity := fun ⟨length, rest_⟩ => h.capacity ⟨by rw [queue] at length; exact Nat.le_of_succ_le length, rest_⟩
    doses := fun bounded => (doseBounded_congr (s := t) (t := { t with attention := a, store := st }) rfl layout recipe).mpr (h.doses bounded)
    generations := agrees
    platform := fun agree => (platformAgrees_congr (s := t) (t := { t with attention := a, store := st }) rfl calibration rfl rfl rfl).mpr (h.platform agree)
    links := h.links
    control := h.control
    freeze := h.freeze
    trims := h.trims }

/-! ## Hand-overs and flushes (R20, R31, R86) -/

/-- A hand-over up to the departure that it reports to the store (R86). -/
def gateDone (L : Layout) (c : CanRecord) (s : State) : State :=
  let d := recordAtGate c s
  let v := verdictOf d.reasons
  let t := driveFor L c.serial v.drives s
  countHandOver d v.drives (appendSummary (summaryOf d v (v.drives && !t.gate.confirmLevel)) t)

theorem handOver_eq (L : Layout) (c : CanRecord) (s : State) :
    handOver L c s = departed c.generation (gateDone L c s) := rfl

theorem gateDone_frame (L : Layout) (c : CanRecord) (s : State) : ∃ g l a k d,
    gateDone L c s = { s with gate := g, canList := l, attention := a, control := k, dose := d } := by
  unfold gateDone
  dsimp only
  obtain ⟨g, l, a, k, h⟩ := driveFor_frame L c.serial (verdictOf (recordAtGate c s).reasons).drives s
  rw [h]
  obtain ⟨a', l', h'⟩ := appendSummary_frame (summaryOf (recordAtGate c s) (verdictOf (recordAtGate c s).reasons)
    ((verdictOf (recordAtGate c s).reasons).drives && !g.confirmLevel))
    { s with gate := g, canList := l, attention := a, control := k }
  rw [h']
  obtain ⟨d, h''⟩ := countHandOver_frame (recordAtGate c s) (verdictOf (recordAtGate c s).reasons).drives
    { s with gate := g, canList := l', attention := a', control := k }
  exact ⟨g, l', a', k, d, h''⟩

theorem gateDone_works (L : Layout) (c : CanRecord) (s : State) : Works s (gateDone L c s) :=
  (countHandOver_works ..).after ((appendSummary_works ..).after (driveFor_works ..))

theorem handOver_works (L : Layout) {c : CanRecord} {rest : List CanRecord} {s : State}
    (queue : s.tracking.queue = c :: rest) : Works s (handOver L c (s.setQueue rest)) := by
  obtain ⟨_, _, _, _, _, e⟩ := gateDone_frame L c (s.setQueue rest)
  rw [handOver_eq]
  exact .depart queue (gateDone_works L c (s.setQueue rest)) (by rw [e]; rfl) (by rw [e]; rfl)

theorem gatePass_works (L : Layout) (n : Nat) (s : State) : Works s (gatePass L n s) := by
  induction n generalizing s with
  | zero => exact .refl s
  | succ n ih =>
    unfold gatePass
    split
    · exact .refl s
    · next c rest queue =>
      split
      · exact (ih _).after (handOver_works L queue)
      · exact .refl s

theorem wholeGatePass_works (L : Layout) (s : State) : Works s (wholeGatePass L s) := gatePass_works ..

theorem examineStations_works (L : Layout) (s : State) : Works s (examineStations L s) := by
  have passes (u : State) : Works u (readPass L (platformPass L u)) := (readPass_works ..).after (platformPass_works ..)
  have chosen : Works s s.chosen := .of_choices _
  unfold examineStations
  dsimp only
  split
  · split
    · exact (wholeGatePass_works ..).after ((passes _).after ((endWithCause_works ..).after chosen))
    · exact (wholeGatePass_works ..).after ((readPass_works ..).after ((endWithCause_works ..).after
        ((platformPass_works ..).after chosen)))
    · exact (wholeGatePass_works ..).after ((endWithCause_works ..).after ((passes _).after chosen))
    · exact (endWithCause_works ..).after ((wholeGatePass_works ..).after ((passes _).after chosen))
  · exact (wholeGatePass_works ..).after (passes s)

theorem countPulse_works (s : State) : Works s (countPulse s) := by
  unfold countPulse
  split
  · have counted : Works s (s.setTracking { s.tracking with residue := 0 }) := .of_tracking rfl
    unfold positionStep
    dsimp only
    have moved : Works s ((s.setTracking { s.tracking with residue := 0 }).setTracking
        { (s.setTracking { s.tracking with residue := 0 }).tracking with
          position := (s.setTracking { s.tracking with residue := 0 }).tracking.position + 1 }) := .of_tracking rfl
    split
    · exact moved
    · exact (examineStations_works ..).after moved
  · exact .of_tracking rfl

theorem flushRecords_works (q : List CanRecord) (s : State) (empty : s.tracking.queue = []) :
    Works (s.setQueue q) (flushRecords q s) := by
  induction q generalizing s with
  | nil => exact .of_tracking (by simp [empty])
  | cons c rest ih =>
    let a := appendSummary (summaryOf c .flushed false) s
    have queue : (departed c.generation a).tracking.queue = [] := by
      obtain ⟨_, _, e⟩ := departed_frame c.generation a
      obtain ⟨_, _, e'⟩ := appendSummary_frame (summaryOf c .flushed false) s
      rw [e]
      exact (congrArg (fun t : State => t.tracking.queue) e').trans empty
    have head : Works (s.setQueue (c :: rest)) ((departed c.generation a).setQueue rest) := by
      rw [departed_setQueue, appendSummary_setQueue]
      obtain ⟨_, _, e⟩ := appendSummary_frame (summaryOf c .flushed false) (s.setQueue rest)
      exact .depart (rest := rest) rfl (appendSummary_works _ (s.setQueue rest)) (by rw [e]; rfl) (by rw [e]; rfl)
    exact (ih _ queue).after head

theorem flushQueue_works (s : State) : Works s (flushQueue s) :=
  (discardWeighing_works _).after (flushRecords_works s.tracking.queue (s.setQueue []) rfl)

end Sys2Proof.Machine

/-! What arrivals, fill reports, the reader link and the edges of the pins keep (chapters 1, 3, 4 and 8). -/

namespace Sys2Proof.Machine

/-! ## Records made (R7, R9, R158) -/

section
variable {s : State}

theorem recordMade_recipe (s : State) : (recordMade s).recipe = s.recipe := by
  unfold recordMade State.recipe
  cases s.store.current <;> rfl

/-- Outside CONFIG a record of the current generation joins the queue where it has room. -/
theorem joinQueue_works {o : CanRecord} {q : List CanRecord} (settled : s.control.state ≠ .config)
    (room : s.tracking.queue.length < 192) (joins : q.Perm (o :: s.tracking.queue))
    (generation : o.generation = s.store.currentGeneration) : Works s (joinQueue q s) where
  now := rfl
  pending := rfl
  lineStop := id
  attention := id
  capacity := fun ⟨_, rest⟩ => ⟨joins.length_eq.trans_le (by simpa using room), rest⟩
  doses := (doseBounded_congr (s := s) (t := joinQueue q s) rfl rfl (recordMade_recipe _)).mpr
  generations := fun ⟨complete, held, current, previous⟩ => by
    obtain ⟨h, cur⟩ : ∃ h, s.store.current = some h := by
      have := complete settled
      simp only [Store.complete, Bool.and_eq_true, Option.isSome_iff_exists] at this
      exact this.2
    have own : o.generation = h.generation := by rw [generation, Store.currentGeneration, cur]; rfl
    have count (g : Generation) : carrying g q = carrying g s.tracking.queue + if o.generation = g then 1 else 0 :=
      (joins.countP_eq _).trans (carrying_cons g o _)
    have cur' : (joinQueue q s).store.current = some { h with count := h.count + 1 } := by
      simp [joinQueue, recordMade, State.setTracking, cur]
    obtain ⟨counted, gen⟩ := current h cur
    refine ⟨fun _ => ?_, fun c hc => ?_, fun k hk => ?_, fun k hk => ?_⟩
    · have := complete settled
      simpa [joinQueue, recordMade, State.setTracking, Store.complete] using this
    · rcases List.mem_cons.mp (joins.mem_iff.mp hc) with rfl | old
      · exact .inl ⟨_, cur', own⟩
      · rcases held c old with ⟨k, hk, same⟩ | before
        · rw [cur] at hk; obtain rfl := Option.some.inj hk
          exact .inl ⟨_, cur', same⟩
        · exact .inr before
    · rw [cur'] at hk; obtain rfl := Option.some.inj hk
      exact ⟨by rw [counted]; exact (count h.generation).symm ▸ by rw [if_pos own], gen⟩
    · obtain ⟨counted', pos, gen', -⟩ := previous k hk
      have apart : ¬o.generation = k.generation := by
        rw [own, gen, gen']
        exact (by decide : ∀ g : Generation, g - 1 ≠ g - 2) _
      exact ⟨by rw [counted']; exact ((count k.generation).trans (by rw [if_neg apart]; rfl)).symm, pos, gen', by rw [cur']; exact nofun⟩
  platform := id
  links := rfl
  control := s.control.halts_refl
  freeze := rfl
  trims := fun _ => rfl

theorem working_ne_config {op : OpState} (working : op.working = true) : op ≠ .config := by rintro rfl; cases working

theorem makeOrphan_works (L : Layout) (settled : s.control.state ≠ .config) : Works s (makeOrphan L s).2 := by
  unfold makeOrphan queueSize
  split
  · exact haltReason_works ..
  · next room =>
    refine (slipAdd_works ..).after (joinQueue_works (o := orphanRecord s (heldBack
      (beforeFilled s.tracking.queue).getLast? (orphanEstimate L s.tracking.position))) settled (by omega) ?_ rfl)
    refine List.perm_middle.trans (List.Perm.cons _ ?_)
    rw [beforeFilled, fromFilled, List.takeWhile_append_dropWhile]

theorem claim_works (c : CanRecord) (s : State) : Works s (claim c s).2 :=
  (slipZero_works _).after (.of_tracking (generation_mapFirst (fun q => { q with stage := .onPlatform }) (fun _ => rfl) _ _))

theorem arrive_works (L : Layout) (settled : s.control.state ≠ .config) : Works s (arrive L s).2 := by
  have pass := platformPass_works L s
  have settled' : (platformPass L s).control.state ≠ .config := mt (Control.halts_config pass.control).mp settled
  unfold arrive
  dsimp only
  split
  · split
    · exact (claim_works ..).after pass
    · exact (makeOrphan_works L settled').after pass
  · exact (makeOrphan_works L settled').after pass

theorem slipAdd_store (L : Layout) (s : State) : (slipAdd L s).store = s.store := by
  obtain ⟨_, _, _, e⟩ := slipAdd_frame L s
  rw [e]

theorem haltReason_store (c : Cause) (d : Int) (s : State) : (haltReason c d s).store = s.store := by
  obtain ⟨_, _, e⟩ := haltReason_frame c d s
  rw [e]

theorem makeOrphan_calibration (L : Layout) (s : State) : (makeOrphan L s).2.store.calibration = s.store.calibration := by
  unfold makeOrphan
  split
  · exact congrArg Store.calibration (haltReason_store ..)
  · dsimp only
    rw [slipAdd_store]
    rfl

theorem arrive_calibration (L : Layout) (s : State) : (arrive L s).2.store.calibration = s.store.calibration := by
  have pass : (platformPass L s).store.calibration = s.store.calibration := by
    obtain ⟨_, _, _, e⟩ := platformPass_frame L s
    rw [e]
  unfold arrive
  dsimp only
  split
  · split
    · exact pass
    · exact (makeOrphan_calibration ..).trans pass
  · exact (makeOrphan_calibration ..).trans pass

/-! ## The pins (R37, R38, R88, R178) -/

theorem Works.of_pins {p : Pins} (eye : p.eye = s.pins.eye) : Works s { s with pins := p } where
  now := rfl
  pending := rfl
  lineStop := id
  attention := id
  capacity := id
  doses := id
  generations := id
  platform := (platformAgrees_congr (s := s) (t := { s with pins := p }) rfl rfl eye rfl rfl).mpr
  links := rfl
  control := s.control.halts_refl
  freeze := rfl
  trims := fun _ => rfl

/-- An edge of the eye, the work at it, and the platform state that both leave. -/
theorem Works.of_eye {p : Pins} {t : State} (h : Works { s with pins := p } t) {w : WeighUnit}
    (buffer : s.weigh.platform.buffer.length ≤ 24 → w.platform.buffer.length ≤ 24)
    (platform : s.platformAgrees → { t with weigh := w }.platformAgrees) : Works s { t with weigh := w } where
  now := h.now
  pending := h.pending
  lineStop := h.lineStop
  attention := h.attention
  capacity := fun cap => by
    obtain ⟨-, before, -⟩ := id cap
    obtain ⟨h1, -, rest⟩ := h.capacity cap
    exact ⟨h1, buffer before, rest⟩
  doses := h.doses
  generations := h.generations
  platform := platform
  links := h.links
  control := h.control
  freeze := h.freeze
  trims := h.trims

theorem endByDeparture_works {w : Weighing} {p : Pins} (clear : p.eye = false) (dwell : s.weigh.platform = .dwell w) :
    Works s (endByDeparture w { s with pins := p }) := by
  refine (post_works ..).after (Works.of_eye (p := p) (.refl _) (fun _ => Nat.zero_le 24) ?_)
  unfold State.platformAgrees
  simp only [dwell, dropConversion, clear]
  rintro ⟨h1, h2, h3, h4, -, -, -, h8⟩
  exact ⟨by simpa using h1, by simp, by simpa using h3, by simpa using h4, fun _ => trivial, nofun, nofun,
    fun held => absurd (h8 held) nofun⟩

theorem eyeClears_works (s : State) : Works s (eyeEdge false clearEye s) := by
  have noted (idle : s.weigh.platform = .idle ∨ s.weigh.platform = .empty ∨ s.resetHeld = true) :
      Works s { s with pins := { s.pins with eye := false } } := by
    refine Works.of_eye (p := { s.pins with eye := false }) (w := s.weigh) (.refl _) id ?_
    rintro ⟨h1, h2, h3, h4, h5, h6, h7, h8⟩
    refine ⟨h1, h2, h3, h4, fun _ => rfl, fun waits => ?_, fun w dwell => ?_, h8⟩
    · have waits : s.weigh.platform = .waitClear := waits
      rcases idle with idle | empty | held
      · rw [waits] at idle; cases idle
      · rw [waits] at empty; cases empty
      · rw [h8 held] at waits; cases waits
    · have dwell : s.weigh.platform = .dwell w := dwell
      rcases idle with idle | empty | held
      · rw [dwell] at idle; cases idle
      · rw [dwell] at empty; cases empty
      · rw [h8 held] at dwell; cases dwell
  unfold eyeEdge unlessReset
  split
  · next held => exact noted (.inr (.inr held))
  · unfold clearEye
    split
    · next idle => exact noted (.inl idle)
    · next empty => exact noted (.inr (.inl empty))
    · next w dwell => exact endByDeparture_works rfl dwell
    · next waits =>
      refine Works.of_eye (p := { s.pins with eye := false }) (.refl _) (fun _ => Nat.zero_le 24) ?_
      have waits : s.weigh.platform = .waitClear := waits
      unfold State.platformAgrees
      simp only [waits]
      rintro ⟨h1, h2, h3, h4, -, -, -, h8⟩
      exact ⟨by simpa using h1, by simpa using h2, by simpa using h3, by simpa using h4, fun _ => trivial, nofun, nofun,
        fun held => absurd (h8 held) nofun⟩

theorem abortZeroByEye_works (s : State) : Works s (abortZeroByEye s) := by
  unfold abortZeroByEye
  split
  · exact abortCapture_works ..
  · exact .refl s

/-- A weighing starts at the blocking edge, after work that leaves the weigh unit (R37, R44). -/
theorem startWeighing_works {p : Pins} {a : Arrived} (h : Works { s with pins := p } a.2)
    (blocked : a.2.pins.eye = true) (empty : s.weigh.platform = .empty) (working : s.control.state.working = true)
    (weigh : a.2.weigh = s.weigh) (calibration : a.2.store.calibration = s.store.calibration)
    (held : a.2.resetHeld = s.resetHeld) : Works s (startWeighing a) := by
  refine Works.of_eye (p := p) h (fun _ => Nat.zero_le 24) ?_
  have working' : a.2.control.state.working = true := (Control.halts_working h.control).trans working
  unfold State.platformAgrees
  simp only [empty, weigh, calibration, held, blocked, working']
  rintro ⟨h1, h2, h3, h4, -, -, -, h8⟩
  exact ⟨by simpa using h1, by simpa using h2, by simpa using h3, by simpa using h4, nofun, nofun, fun _ _ => ⟨trivial, trivial⟩,
    fun held => absurd (h8 held) nofun⟩

theorem eyeBlocks_works (s : State) : Works s (eyeEdge true blockEye s) := by
  have noted (blocked : s.weigh.platform ≠ .empty ∨ s.resetHeld = true) : Works s { s with pins := { s.pins with eye := true } } := by
    refine Works.of_eye (p := { s.pins with eye := true }) (w := s.weigh) (.refl _) id ?_
    rintro ⟨h1, h2, h3, h4, h5, h6, h7, h8⟩
    refine ⟨h1, h2, h3, h4, fun empty => ?_, fun _ => rfl, fun w dwell => ⟨rfl, (h7 w dwell).2⟩, h8⟩
    have empty : s.weigh.platform = .empty := empty
    rcases blocked with blocked | held
    · exact absurd empty blocked
    · rw [h8 held] at empty; cases empty
  unfold eyeEdge unlessReset
  split
  · next held => exact noted (.inr held)
  · unfold blockEye
    split
    · next empty =>
      split
      · next working =>
        split
        · exact startWeighing_works (p := { s.pins with eye := true }) (a := (none, _)) (.refl _) rfl empty working rfl rfl rfl
        · next L _ =>
          obtain ⟨_, _, _, _, e⟩ := arrive_frame L { s with pins := { s.pins with eye := true } }
          exact startWeighing_works (a := arrive L _) (arrive_works L (working_ne_config working)) (by rw [e]) empty
            working (by rw [e]) (arrive_calibration ..) (by rw [e])
      · refine (abortZeroByEye_works _).after
          (Works.of_eye (p := { s.pins with eye := true }) (.refl _) (fun _ => Nat.zero_le 24) ?_)
        have empty : s.weigh.platform = .empty := empty
        unfold State.platformAgrees
        simp only [empty]
        rintro ⟨h1, h2, h3, h4, -, -, -, h8⟩
        exact ⟨by simpa using h1, by simpa using h2, by simpa using h3, by simpa using h4, nofun, fun _ => trivial, nofun,
          fun held => absurd (h8 held) nofun⟩
    · next other => exact noted (.inl other)

theorem confirmActive_works (s : State) : Works s (confirmActive s) := by
  unfold confirmActive
  split
  · exact .refl s
  · refine (Works.of_gate (s := { s with pins := { s.pins with confirm := true } }) (fun h => ?_)).after (.of_pins rfl)
    split <;> exact h

theorem confirmInactive_works (s : State) : Works s (confirmInactive s) :=
  (Works.of_gate (s := { s with pins := { s.pins with confirm := false } })
    (g := { s.gate with confirmLevel := false, qualify := none }) id).after (.of_pins rfl)

theorem confirmQualified_works (s : State) : Works s (confirmQualified s) := by
  unfold confirmQualified
  split
  · exact (satisfyWindows_works _).after (.of_gate (g := { s.gate with confirmLevel := true, qualify := none }) id)
  · exact .refl s

theorem rejectPulseEnd_works (s : State) : Works s (rejectPulseEnd s) := by
  unfold rejectPulseEnd
  split
  · exact .of_gate (g := { s.gate with drive := none }) id
  · exact .refl s

/-! ## Fill reports (section 1.3) -/

theorem fillServed_works {st : Status} {n : Option Serial} {v : Nat} (used : s.doseBounded → (s.valve v).state ≠ .unused) :
    Works s (fillServed st n v s).2 := serveDose_works .filler used

theorem haltReason_valve (c : Cause) (d : Int) (s : State) (v : Nat) : (haltReason c d s).valve v = s.valve v := by
  obtain ⟨_, _, e⟩ := haltReason_frame c d s
  rw [e]; rfl

theorem fillRecord_works {p : List Byte} {stamp : Position} (settled : s.control.state ≠ .config)
    (used : s.doseBounded → (s.valve (fillValve p)).state ≠ .unused) : Works s (fillRecord p stamp s).2 := by
  unfold fillRecord queueSize
  split
  · refine (fillServed_works fun bounded => ?_).after (haltReason_works ..)
    obtain ⟨_, _, e⟩ := haltReason_frame .trackOverflow (fillValve p) s
    rw [haltReason_valve]
    refine used ?_
    rw [e] at bounded
    exact bounded
  · have joined : Works s (joinQueue (s.tracking.queue ++ [filledRecord p stamp s]) s) :=
      joinQueue_works (o := filledRecord p stamp s) settled (by omega) List.perm_append_comm rfl
    refine (fillServed_works (s := joinQueue _ s) fun bounded => used ?_).after joined
    exact (doseBounded_congr (s := s) (t := joinQueue _ s) rfl rfl (recordMade_recipe _)).mp bounded

theorem valveInRange_of_fill {p : List Byte} (inside : ¬fillOutOfRange p s = true) :
    1 ≤ fillValve p ∧ fillValve p ≤ s.valveCount := by
  simp only [fillOutOfRange, Bool.or_eq_true, not_or, Bool.not_eq_true, Bool.not_eq_false'] at inside
  exact (valveInRange_iff _ _).mp inside.1.1

theorem ownFillReport_works (p : List Byte) (stamp : Position) (s : State) : Works s (ownFillReport p stamp s).2 := by
  unfold ownFillReport
  split
  · exact .refl s
  · next working =>
    have settled : s.control.state ≠ .config := working_ne_config (by simpa using working)
    split
    · exact .refl s
    · next inside =>
      obtain ⟨first, last⟩ := valveInRange_of_fill inside
      have used (t : State) (count : t.valveCount = s.valveCount) (bounded : t.doseBounded) :
          (t.valve (fillValve p)).state ≠ .unused := used_of_inRange bounded first (count ▸ last)
      split
      · exact fillServed_works (used s rfl)
      · split
        · obtain ⟨d, e⟩ := faultBlock_frame (fillValve p) s
          exact (fillRecord_works (by rw [e]; exact settled) (used _ (by rw [e]; rfl))).after (faultBlock_works (used s rfl))
        · exact fillRecord_works settled (used s rfl)

/-! ## The reader link and the code unit (chapter 3) -/

theorem placeReader_works (c : Byte) (s : State) : Works s (placeReader c s) := .of_reader id

theorem setFlow_works (f : FlowState) (s : State) : Works s (s.setCode { s.code with flow := f }) :=
  .of_code id fun h _ => h

theorem afterStore_works (s : State) : Works s (afterStore s) := by
  unfold afterStore
  split
  · exact (setFlow_works .held (placeReader xoff s)).after (placeReader_works ..)
  · exact .refl s

theorem afterTake_works (s : State) : Works s (afterTake s) := by
  unfold afterTake
  split
  · exact (setFlow_works .opened (placeReader xon s)).after (placeReader_works ..)
  · exact .refl s

theorem Receiver.full_iff (rx : Receiver) : rx.full = true ↔ 128 ≤ rx.fifo.length := decide_eq_true_iff

theorem Receiver.length_store {rx : Receiver} (room : ¬rx.full = true) (e : Bool → Entry) (watch : Option Moment) :
    (rx.store e watch).fifo.length ≤ 128 := by
  rw [Receiver.full_iff] at room
  simp [Receiver.store]
  omega

theorem storeReader_works (e : Bool → Entry) (watch : Option Moment) (s : State) : Works s (storeReader e watch s) := by
  unfold storeReader
  split
  · exact .of_reader id
  · next room => exact (afterStore_works _).after (.of_reader fun _ => Receiver.length_store room e watch)

theorem readerCharacter_works (data : Byte) (parityBit stopBit : Bool) (s : State) :
    Works s (readerCharacter data parityBit stopBit s) := by
  unfold readerCharacter
  split
  · exact .refl s
  · exact storeReader_works ..

theorem readerGap_works (s : State) : Works s (readerGap s) := by
  unfold readerGap
  split
  · exact storeReader_works ..
  · exact .refl s

theorem breakReader_works (s : State) : Works s (breakReader s) := by
  have emptied : Works s (s.setReader { s.reader with
      rx := { s.reader.rx with fifo := [], silence := none, breakLow := true }, tx := { s.reader.tx with fifo := [] } }) :=
    .of_reader fun _ => Nat.zero_le 128
  have dropped (u : State) : Works u (u.setCode { u.code with assembler := .idle }) :=
    .of_code (fun _ => Nat.zero_le 24) fun h _ => h
  have broken := (dropped _).after emptied
  unfold breakReader
  split
  · exact .refl s
  · dsimp only
    split
    · exact (setFlow_works .opened (placeReader xon _)).after ((placeReader_works ..).after broken)
    · exact broken

/-- The assembler's text and the text of a message it completes have room (R65). -/
theorem assemble_text {a : MessageAssembler} (full : a.text.length ≤ 24) (k : EntryKind) :
    (assemble a k).1.text.length ≤ 24 ∧ ∀ t, (assemble a k).2 = some (some t) → t.length ≤ 24 := by
  cases a with
  | idle => cases k <;> simp [assemble, MessageAssembler.text]
  | collecting t =>
    have full : t.length ≤ 24 := full
    cases k with
    | printable c =>
      by_cases room : t.length < 24 <;> simp [assemble, textSize, room, MessageAssembler.text]
    | ending => simpa [assemble, MessageAssembler.text] using full
    | _ => simp [assemble, MessageAssembler.text]
  | discard => cases k <;> simp [assemble, MessageAssembler.text]

theorem readerTake_works (s : State) : Works s (readerTake s) := by
  unfold readerTake
  split
  · next e rest message fifo =>
    refine (afterTake_works _).after ((Works.of_code (s := s.setReader _) (c := takeEntry e s.code) ?_ ?_).after
      (.of_reader fun h => ?_))
    · exact fun full => (assemble_text full _).1
    · intro before full m x hm hx
      unfold takeEntry at hm
      dsimp only at hm
      split at hm
      · next text done =>
        obtain rfl := Option.some.inj hm
        exact (assemble_text full _).2 x (done.trans (congrArg some hx))
      · exact before m x hm hx
    · rw [fifo] at h; exact Nat.le_of_succ_le h
  · exact .refl s

theorem strayMessage_works (s : State) : Works s (strayMessage s) := .of_code id fun h _ => h

theorem matchMessage_works (m : Message) (s : State) : Works s (matchMessage m s) := by
  unfold matchMessage
  split
  · exact strayMessage_works s
  · next L _ =>
    have passed : Works s (s.setQueue (markUnread s.store (pastReader L m.stamp) s.tracking.queue)) :=
      .of_tracking (generation_markUnread ..)
    dsimp only
    split
    · exact (strayMessage_works _).after passed
    · split
      · exact (Works.of_tracking (s := s.setQueue _) (generation_mapFirst (matchRecord _ m.text) (fun _ => rfl) _ _)).after passed
      · exact (strayMessage_works _).after passed

theorem handleMessage_works (s : State) : Works s (handleMessage s) := by
  unfold handleMessage
  split
  · exact .refl s
  · exact (matchMessage_works ..).after (.of_code (c := { s.code with message := none }) id fun _ _ => nofun)

end

end Sys2Proof.Machine

/-! What the events and requests of a link keep (chapters 9 to 11). -/

namespace Sys2Proof.Machine

/-- Work of the part that touches one link as well. -/
structure WorksOn (l : Link) (s t : State) : Prop extends Keeps s t where
  others : ∀ k, k ≠ l → t.link k = s.link k
  control : s.control.halts t.control
  freeze : t.dose.freeze = s.dose.freeze
  trims : s.frozen = true → t.dose.trims = s.dose.trims

section
variable {l : Link} {s t u : State}

theorem Works.on (h : Works s t) : WorksOn l s t :=
  { h with others := fun k _ => by rw [State.link, h.links, State.link] }

theorem WorksOn.refl (s : State) : WorksOn l s s := (Works.refl s).on

theorem WorksOn.after (k : WorksOn l t u) (h : WorksOn l s t) : WorksOn l s u where
  toKeeps := h.toKeeps.trans k.toKeeps
  others := fun x other => (k.others x other).trans (h.others x other)
  control := Control.halts_trans h.control k.control
  freeze := k.freeze.trans h.freeze
  trims := fun frozen => (k.trims ((frozen_congr h.freeze).trans frozen)).trans (h.trims frozen)

theorem WorksOn.halt (h : WorksOn l s t) (halt : s.control.state = .halt) : t.control.state = .halt := by
  rcases h.control with ⟨state, -⟩ | ⟨-, state, -⟩
  · exact state.trans halt
  · exact state

/-- A link is replaced by one that holds no more than its FIFOs have room for. -/
theorem setLink_works {m : MasterLink} (fits : (s.link l).withinCapacity → m.withinCapacity) :
    WorksOn l s (s.setLink l m) where
  now := rfl
  pending := rfl
  lineStop := id
  attention := id
  capacity := fun ⟨h1, h2, h3, h4, h5, h6, h7, h8, links, h10⟩ => ⟨h1, h2, h3, h4, h5, h6, h7, h8, fun k => by
    by_cases same : k = l
    · subst same; rw [setLink_link_same]; exact fits (links k)
    · rw [setLink_link_other _ _ same]; exact links k, h10⟩
  doses := id
  generations := id
  platform := id
  others := fun _ other => setLink_link_other _ _ other
  control := s.control.halts_refl
  freeze := rfl
  trims := fun _ => rfl

/-! ## Answers and requests (R190, R195) -/

theorem answered_fits {m : MasterLink} (fits : m.withinCapacity) (a : List Byte) : (m.answered a).withinCapacity := by
  obtain ⟨rx, tx⟩ := fits
  rcases answered_cases m a with ⟨room, e⟩ | ⟨-, e⟩ <;> rw [e]
  · exact ⟨rx, by simpa using room⟩
  · exact ⟨rx, tx⟩

theorem answer_works (l : Link) (kind : Byte) (r : Reply) (s : State) : WorksOn l s (answer l kind r s) :=
  setLink_works (answered_fits · _)

theorem serveUnknown_works (l : Link) (kind : Byte) (p : List Byte) (s : State) : WorksOn l s (serveUnknown l kind p s) := by
  unfold serveUnknown
  split
  · exact .refl s
  · exact answer_works ..

/-! ## Reception (R182 to R186, R192) -/

theorem countError_works (l : Link) (n : CountName) (s : State) : WorksOn l s (countError l n s) := by
  unfold countError
  dsimp only
  split
  · exact (raiseOn_works ..).on.after (setLink_works id)
  · exact setLink_works id

theorem countEntry_works (l : Link) (e : Entry) (s : State) : WorksOn l s (countEntry l e s) := by
  have chosen : WorksOn l s s.chosen := (Works.of_choices _).on
  unfold countEntry
  split
  · exact .refl s
  · exact countError_works ..
  · exact countError_works ..
  · split
    · exact (countError_works ..).after ((countError_works ..).after chosen)
    · exact (countError_works ..).after ((countError_works ..).after chosen)

theorem storeEntry_works (l : Link) (e : Bool → Entry) (watch : Option Moment) (s : State) :
    WorksOn l s (storeEntry l e watch s) := by
  unfold storeEntry
  dsimp only
  split
  · exact setLink_works id
  · next room => exact (countEntry_works ..).after (setLink_works fun ⟨_, tx⟩ => ⟨Receiver.length_store room e watch, tx⟩)

theorem receiveCharacter_works (l : Link) (data : Byte) (parityBit stopBit : Bool) (s : State) :
    WorksOn l s (receiveCharacter l data parityBit stopBit s) := by
  unfold receiveCharacter
  dsimp only
  split
  · exact .refl s
  · split
    · exact setLink_works id
    · split
      · exact setLink_works id
      · exact storeEntry_works ..

theorem receiveGap_works (l : Link) (s : State) : WorksOn l s (receiveGap l s) := by
  unfold receiveGap
  split
  · exact storeEntry_works ..
  · exact .refl s

theorem breakLink_works (l : Link) (s : State) : WorksOn l s (breakLink l s) := by
  unfold breakLink
  split
  · exact .refl s
  · exact setLink_works fun _ => ⟨Nat.zero_le 128, Nat.zero_le 128⟩

theorem expirePause_works (l : Link) (s : State) : WorksOn l s (expirePause l s) := by
  unfold expirePause
  split
  · exact setLink_works id
  · exact .refl s

/-! ## The frame assembler and the transmitters (R187 to R191) -/

theorem actAssembler_works (l : Link) (act : AssemblerAct) (s : State) : WorksOn l s (actAssembler l act s) := by
  unfold actAssembler
  split
  · exact setLink_works id
  · exact (countError_works ..).after (setLink_works id)
  · exact setLink_works id

theorem takeFrameEntry_works (l : Link) (s : State) : WorksOn l s (takeFrameEntry l s) := by
  unfold takeFrameEntry
  dsimp only
  split
  · exact .refl s
  · next fifo =>
    split
    · refine (actAssembler_works ..).after (setLink_works fun ⟨rx, tx⟩ => ⟨?_, tx⟩)
      rw [fifo] at rx
      exact Nat.le_of_succ_le rx
    · exact .refl s

theorem placeHeld_works (l : Link) (s : State) : WorksOn l s (placeHeld l s) := by
  unfold placeHeld
  split
  · next a placeable =>
    refine setLink_works fun ⟨rx, _⟩ => ⟨rx, ?_⟩
    unfold MasterLink.placeable at placeable
    split at placeable
    · split at placeable
      · next room =>
        obtain rfl := Option.some.inj placeable
        simpa [MasterLink.place, fifoSize] using of_decide_eq_true room
      · cases placeable
    · cases placeable
  · exact .refl s

theorem expireHold_works (l : Link) (s : State) : Works s (expireHold l s) := by
  unfold expireHold
  split
  · exact .of_attention fun agrees => setAtt_attentionAgrees agrees ⟨fun held => absurd rfl held, (agrees l).2⟩
  · exact .refl s

/-- What a change of one channel keeps: the link of the channel is its own, and the reader link is none. -/
theorem setPort_works {ch : Channel} {p : Port} (rx : (s.port ch).rx.fifo.length ≤ 128 → p.rx.fifo.length ≤ 128)
    (tx : (s.port ch).tx.fifo.length ≤ 128 → p.tx.fifo.length ≤ 128) :
    (masterOf ch = none → Works s (s.setPort ch p)) ∧ ∀ l, masterOf ch = some l → WorksOn l s (s.setPort ch p) := by
  cases ch with
  | reader => exact ⟨fun _ => .of_reader rx, nofun⟩
  | _ => exact ⟨nofun, fun l own => by cases own; exact setLink_works fun ⟨r, t⟩ => ⟨rx r, tx t⟩⟩

theorem sendCharacter_works (ch : Channel) (s : State) :
    (masterOf ch = none → Works s (sendCharacter ch s)) ∧ ∀ l, masterOf ch = some l → WorksOn l s (sendCharacter ch s) := by
  unfold sendCharacter
  dsimp only
  split
  · exact ⟨fun _ => .refl s, fun _ _ => .refl s⟩
  · next fifo =>
    split
    · exact setPort_works id fun h => by rw [fifo] at h; exact Nat.le_of_succ_le h
    · exact ⟨fun _ => .refl s, fun _ _ => .refl s⟩

theorem endBreak_works (ch : Channel) (s : State) :
    (masterOf ch = none → Works s (endBreak ch s)) ∧ ∀ l, masterOf ch = some l → WorksOn l s (endBreak ch s) :=
  setPort_works id id

/-! ## The owners of the requests that no load and no state request is -/

theorem ownLinkStats_works (l : Link) (p : List Byte) (s : State) : WorksOn l s (ownLinkStats l p s).2 := by
  unfold ownLinkStats
  split
  · exact .refl s
  · exact setLink_works id

theorem releaseIfNone_agrees {a : Attention} (ordered : a.ordered) : a.releaseIfNone.backed ∧ a.releaseIfNone.ordered := by
  refine ⟨fun held => ?_, ordered⟩
  unfold Attention.releaseIfNone at held
  by_cases any : a.anyEnabled = true
  · exact any
  · simp [any] at held

theorem ownCauseTake_works (l : Link) (s : State) : Works s (ownCauseTake l s).2 := by
  unfold ownCauseTake
  split
  · exact .refl s
  · exact .of_attention fun agrees =>
      setAtt_attentionAgrees agrees (releaseIfNone_agrees ((agrees l).2.filter _))

theorem ownCauseEnable_works (l : Link) (p : List Byte) (s : State) : Works s (ownCauseEnable l p s).2 := by
  unfold ownCauseEnable
  split
  · exact .refl s
  · exact .of_attention fun agrees => setAtt_attentionAgrees agrees (releaseIfNone_agrees (agrees l).2)

theorem ownCanListTake_works (p : List Byte) (s : State) : Works s (ownCanListTake p s).2 := by
  unfold ownCanListTake
  split
  · exact .refl s
  · exact .of_canList fun ⟨ring, unread⟩ => ⟨ring, (Nat.sub_le ..).trans unread⟩

theorem ownListLevelSet_works (p : List Byte) (s : State) : Works s (ownListLevelSet p s).2 := by
  unfold ownListLevelSet
  split
  · exact .refl s
  · dsimp only
    split
    · exact (raiseOn_works ..).after (.of_canList (l := { s.canList with level := u16At p 0, armed := false }) id)
    · exact .of_canList (l := { s.canList with level := u16At p 0, armed := true }) id

theorem serveDoses_works {v n : Nat} (first : 1 ≤ v) (last : v + n - 1 ≤ s.valveCount) : Works s (serveDoses l v n s) := by
  induction n with
  | zero => exact .refl s
  | succ n ih =>
    refine (serveDose_works l fun bounded => used_of_inRange bounded (by omega) ?_).after (ih (by omega))
    obtain ⟨d, e⟩ := serveDoses_frame l v n s
    rw [e]
    show v + n ≤ s.valveCount
    omega

theorem ownDoseQuery_works (l : Link) (p : List Byte) (s : State) : Works s (ownDoseQuery l p s).2 := by
  unfold ownDoseQuery
  dsimp only
  split
  · exact .refl s
  · split
    · exact .refl s
    · exact serveDoses_works (by omega) (by omega)

theorem ownBaseSet_works (p : List Byte) (s : State) : Works s (ownBaseSet p s).2 := by
  unfold ownBaseSet
  dsimp only
  split
  · exact .refl s
  · split
    · exact .refl s
    · next range =>
      obtain ⟨first, last⟩ := (valveInRange_iff _ _).mp (by simpa using range)
      exact setValve_works_of_same (used_of_inRange · first last) id rfl rfl

/-- A hold request on a valve in use does what its action does (R133). -/
theorem withValve_works {p : List Byte} {act : Nat → State → Served}
    (work : ∀ v, (s.doseBounded → (s.valve v).state ≠ .unused) → Works s (act v s).2) : Works s (withValve p act s).2 := by
  unfold withValve
  split
  · exact .refl s
  · split
    · exact .refl s
    · next range =>
      obtain ⟨first, last⟩ := (valveInRange_iff _ _).mp (by simpa using range)
      exact work _ (used_of_inRange · first last)

theorem holdValve_works {v : Nat} (used : s.doseBounded → (s.valve v).state ≠ .unused) : Works s (holdValve l v s).2 := by
  unfold holdValve
  split
  · split
    · exact .refl s
    · split
      · exact setValveState_works used nofun
      · exact .refl s
  · exact setValveState_works used nofun

theorem freeValve_works {v : Nat} (used : s.doseBounded → (s.valve v).state ≠ .unused) : Works s (freeValve l v s).2 := by
  unfold freeValve
  split
  · split
    · exact releaseValve_works used
    · exact .refl s
  · split
    · exact releaseValve_works used
    · exact .refl s
  · exact .refl s

theorem acceptValve_works {v : Nat} (used : s.doseBounded → (s.valve v).state ≠ .unused) : Works s (acceptValve v s).2 := by
  unfold acceptValve
  split
  · exact setValve_works_of_same used (fun _ => nofun) rfl rfl
  · exact .refl s
  · exact .refl s

theorem ownValveView_works (l : Link) (p : List Byte) (s : State) : Works s (ownValveView l p s).2 := by
  unfold ownValveView
  dsimp only
  split
  · exact .refl s
  · next range =>
    obtain ⟨first, last⟩ := (valveInRange_iff _ _).mp (by simpa using range)
    split
    · exact .refl s
    · exact .refl s
    · split
      · exact .refl s
      · exact setValve_works_of_same (used_of_inRange · first last) id rfl rfl

theorem ownRecordRead_works (p : List Byte) (s : State) : Works s (ownRecordRead p s).2 := by
  unfold ownRecordRead
  split
  · exact .refl s
  · split
    · exact .refl s
    · split
      · exact .refl s
      · split <;> exact .refl s

theorem ownQueueView_works (p : List Byte) (s : State) : Works s (ownQueueView p s).2 := by
  unfold ownQueueView
  dsimp only
  split <;> exact .refl s

theorem ownFlush_works (s : State) : Works s (ownFlush s).2 := by
  unfold ownFlush
  split
  · exact .refl s
  · exact flushQueue_works s

theorem ownZeroCapture_works (s : State) : Works s (ownZeroCapture s).2 := by
  unfold ownZeroCapture
  split
  · exact .refl s
  · split
    · exact .refl s
    · exact beginZeroCapture_works s

theorem ownSpanCapture_works (p : List Byte) (s : State) : Works s (ownSpanCapture p s).2 := by
  unfold ownSpanCapture
  split
  · exact .refl s
  · split
    · exact .refl s
    · split
      · exact .refl s
      · exact beginCapture_works ..

end

end Sys2Proof.Machine

/-! What the settings loads, the state requests, the line command decoder and the resets keep (chapters 7 to 9). -/

namespace Sys2Proof.Machine

/-! ## One relation over all commands -/

/-- What holds of every command `i`, whatever it is: the agreements and bounds, the links that are not its own (R203), what leaves
HALT (chapter 8), and the trims of a frozen part (R120). -/
structure Acts (i : Instr) (s t : State) : Prop extends Keeps s t where
  others : i.resets = false → ∀ k, i.link? ≠ some k → t.link k = s.link k
  halt : s.control.state = .halt → t.control.state ≠ .halt →
    i.resets = true ∨ i = .stop .supervisor [] ∨ i = .restart .supervisor [] ∨
      (s.weigh.cellFault = false ∧ (i = .clear .supervisor [] ∨ i = .lineClear ∨ i = .lcmdFallingEdge ∨ i = .lcmdRisingEdge))
  trims : s.frozen = true → i.resets = false → (∀ l p, i ≠ .recipeLoad l p) → (∀ l p, i ≠ .restart l p) →
    t.dose.trims = s.dose.trims

section
variable {i : Instr} {l : Link} {s t : State}

theorem Works.acts (h : Works s t) : Acts i s t :=
  { h with
    others := fun _ k _ => by rw [State.link, h.links, State.link]
    halt := fun halt left => absurd (h.halt halt) left
    trims := fun frozen _ _ _ => h.trims frozen }

theorem WorksOn.acts (own : i.link? = some l) (h : WorksOn l s t) : Acts i s t :=
  { h with
    others := fun _ k other => h.others k fun same => other (by rw [own, same])
    halt := fun halt left => absurd (h.halt halt) left
    trims := fun frozen _ _ _ => h.trims frozen }

/-- A request does what its owner does, where it is taken on a link that may send it, and is answered on its link. -/
theorem serve_acts {k : Kind} {p : List Byte} {st : Option Position} {own : State → Served} (link : i.link? = some l)
    (work : s.resetHeld = false → permitted k l = true → lengthOk k p = true → Acts i s (own s).2) :
    Acts i s (serve k l p st own s) := by
  rcases serve_cases k l p st own s with ⟨-, e⟩ | ⟨released, -, ⟨-, e⟩ | ⟨-, -, e⟩ | ⟨may, length, e⟩⟩ <;> rw [e]
  · exact (Works.refl s).acts
  · exact (answer_works ..).acts link
  · exact (answer_works ..).acts link
  · have acts := work released may length
    exact {
      toKeeps := acts.toKeeps.trans (answer_works l ..).toKeeps
      others := fun event k other =>
        (answer_link_other _ _ _ fun same => other (by rw [link, same])).trans (acts.others event k other)
      halt := acts.halt
      trims := acts.trims }

theorem unlessReset_acts {f : State → State} (work : s.resetHeld = false → Acts i s (f s)) : Acts i s (unlessReset f s) := by
  cases held : s.resetHeld with
  | true => rw [unlessReset_of_held held]; exact (Works.refl s).acts
  | false => rw [unlessReset_of_released held]; exact work held

end

/-! ## The settings loads (R150, R152, R160, R170) -/

section
variable {s : State}

/-- The part passes to READY where the three records are present (R170). -/
theorem passToReady_keeps (s : State) : Keeps s (passToReady s) := by
  unfold passToReady
  split
  · next ready =>
    obtain ⟨config, complete⟩ := ready
    exact {
      now := rfl
      pending := rfl
      lineStop := fun agrees => by
        unfold State.lineStopAgrees at *
        rw [config] at agrees
        simpa using agrees
      attention := id
      capacity := id
      doses := id
      generations := fun ⟨_, rest⟩ => ⟨fun _ => complete, rest⟩
      platform := fun ⟨h1, h2, h3, h4, h5, h6, h7, h8⟩ => ⟨h1, h2, h3, h4, h5, h6, fun w dwell => by
        have working := (h7 w dwell).2
        rw [config] at working
        exact absurd working Bool.false_ne_true, h8⟩ }
  · exact .refl s

theorem passToReady_state (halt : s.control.state = .halt) : (passToReady s).control.state = .halt := by
  unfold passToReady
  rw [if_neg (by rw [halt]; exact nofun)]
  exact halt

theorem passToReady_links (s : State) : (passToReady s).links = s.links := by
  unfold passToReady
  split <;> rfl

theorem passToReady_dose (s : State) : (passToReady s).dose = s.dose := by
  unfold passToReady
  split <;> rfl

/-! ### LAYOUT LOAD -/

section
variable (old new : Nat) (vs : List Valve)

theorem length_resizeTable : (resizeTable old new vs).length = vs.length := List.length_mapIdx

theorem getElem?_resizeTable (i : Nat) : (resizeTable old new vs)[i]? = vs[i]?.map fun e =>
    if old ≤ i ∧ i < new then freshValve else if new ≤ i ∧ i < old then Valve.reset else e := List.getElem?_mapIdx

theorem resizeTable_same (n : Nat) : resizeTable n n vs = vs :=
  List.ext_getElem? fun i => by
    rw [getElem?_resizeTable]
    cases vs[i]? with
    | none => rfl
    | some e => rw [Option.map_some, if_neg (by omega), if_neg (by omega)]

variable {old new vs}

theorem mem_resizeTable {e : Valve} (mem : e ∈ resizeTable old new vs) : e ∈ vs ∨ e = freshValve ∨ e = Valve.reset := by
  obtain ⟨i, place⟩ := List.mem_iff_getElem?.mp mem
  rw [getElem?_resizeTable] at place
  obtain ⟨x, here, rfl⟩ := Option.map_eq_some_iff.mp place
  split
  · exact .inr (.inl rfl)
  · split
    · exact .inr (.inr rfl)
    · exact .inl (List.mem_of_getElem? here)

end

/-- The bounds of the dose unit under a layout record with another valve count (R130, R131). -/
theorem doseBounded_resize {r : Layout} (count : r.valveCount ≤ 64) (bounded : s.doseBounded) :
    { s with dose := { s.dose with valves := resizeTable s.valveCount r.valveCount s.dose.valves },
             store := { s.store with layout := some r } }.doseBounded := by
  have nonneg := accBound_nonneg s
  obtain ⟨⟨length, -⟩, inUse, above, within, line⟩ := bounded
  refine ⟨⟨(length_resizeTable ..).trans length, count⟩, fun e he => ?_, fun e he => ?_, fun e he => ?_, line⟩
  · have he : e ∈ (resizeTable s.valveCount r.valveCount s.dose.valves).take r.valveCount := he
    obtain ⟨i, place⟩ := List.mem_iff_getElem?.mp he
    rw [List.getElem?_take] at place
    split at place
    · rw [getElem?_resizeTable] at place
      obtain ⟨x, here, rfl⟩ := Option.map_eq_some_iff.mp place
      split
      · exact nofun
      · rw [if_neg (by omega)]
        exact inUse x (List.mem_iff_getElem?.mpr ⟨i, by rw [State.inUse, List.getElem?_take, if_pos (by omega)]; exact here⟩)
    · cases place
  · have he : e ∈ (resizeTable s.valveCount r.valveCount s.dose.valves).drop r.valveCount := he
    obtain ⟨i, place⟩ := List.mem_iff_getElem?.mp he
    rw [List.getElem?_drop, getElem?_resizeTable] at place
    obtain ⟨x, here, rfl⟩ := Option.map_eq_some_iff.mp place
    rw [if_neg (by omega)]
    split
    · rfl
    · exact above x (List.mem_iff_getElem?.mpr ⟨r.valveCount + i - s.valveCount, by
        rw [List.getElem?_drop, ← here]; congr 1; omega⟩)
  · rcases mem_resizeTable he with old | rfl | rfl
    · exact within e old
    · exact ⟨neg_nonpos.mpr nonneg, nonneg⟩
    · exact ⟨neg_nonpos.mpr nonneg, nonneg⟩

theorem layoutValid_valveCount {r : Layout} (valid : layoutValid r = true) : 1 ≤ r.valveCount ∧ r.valveCount ≤ 64 := by
  simp only [layoutValid, Bool.and_eq_true, decide_eq_true_eq] at valid
  tauto

theorem installLayout_keeps {r : Layout} (count : r.valveCount ≤ 64) (s : State) : Keeps s (installLayout r s) := by
  refine Keeps.trans ?_ (passToReady_keeps _)
  exact {
    now := rfl
    pending := rfl
    lineStop := id
    attention := id
    capacity := fun ⟨h1, h2, h3, h4, h5, h6, h7, h8, rest⟩ => ⟨h1, h2, h3, h4, h5, h6, h7, fun e he => by
      rcases mem_resizeTable he with old | rfl | rfl
      · exact h8 e old
      · exact Nat.zero_le 8
      · exact Nat.zero_le 8, rest⟩
    doses := doseBounded_resize count
    generations := fun ⟨complete, rest⟩ => ⟨fun settled => by
      have := complete settled
      simp only [Store.complete, Bool.and_eq_true] at this ⊢
      exact ⟨⟨rfl, this.1.2⟩, this.2⟩, rest⟩
    platform := id }

theorem loadState_ne_halt {op : OpState} (may : loadState op = true) : op ≠ .halt := by rintro rfl; cases may

theorem ownLayoutLoad_acts (l : Link) (p : List Byte) (s : State) : Acts (.layoutLoad l p) s (ownLayoutLoad p s).2 := by
  unfold ownLayoutLoad
  split
  · exact (Works.refl s).acts
  · next may =>
    split
    · exact (Works.refl s).acts
    · next valid =>
      split
      · exact (Works.refl s).acts
      · next free =>
        exact {
          toKeeps := installLayout_keeps (layoutValid_valveCount (by simpa using valid)).2 s
          others := fun _ k _ => congrArg (PerLink.get · k) (passToReady_links _)
          halt := fun halt => absurd halt (loadState_ne_halt (by simpa using may))
          trims := fun frozen _ _ _ => by
            have same : (layoutOf p).valveCount = s.valveCount := by
              by_contra other
              exact free ⟨other, frozen⟩
            show (passToReady _).dose.trims = _
            rw [passToReady_dose, same, resizeTable_same] }

/-! ### CAL LOAD -/

theorem Works.of_calLoad {r : Calibration} (released : s.resetHeld = false) : Works s { s with
    weigh := weighLoad r s.pins.eye s.weigh, store := { s.store with calibration := some r } } where
  now := rfl
  pending := rfl
  lineStop := id
  attention := id
  capacity := fun ⟨h1, h2, rest⟩ => ⟨h1, by
    cases e : s.weigh.platform <;> simp only [weighLoad, platformAfterLoad, e] at h2 ⊢
    · split <;> exact h2
    all_goals exact h2, rest⟩
  doses := id
  generations := fun ⟨complete, rest⟩ => ⟨fun settled => by
    have := complete settled
    simp only [Store.complete, Bool.and_eq_true] at this ⊢
    exact ⟨⟨this.1.1, rfl⟩, this.2⟩, rest⟩
  platform := by
    have outside : platformAfterLoad s.pins.eye s.weigh.platform ≠ .idle := by
      unfold platformAfterLoad
      split
      · split <;> exact nofun
      all_goals exact nofun
    rintro ⟨-, -, -, -, h5, h6, h7, -⟩
    refine ⟨iff_of_false outside nofun, iff_of_false outside nofun, iff_of_false outside nofun, iff_of_false outside nofun,
      fun empty => ?_, fun waits => ?_, fun w dwell => ?_, fun held => absurd held (by simp [released])⟩
    all_goals cases e : s.weigh.platform <;> cases eye : s.pins.eye <;>
      simp_all [weighLoad, platformAfterLoad]
  links := rfl
  control := s.control.halts_refl
  freeze := rfl
  trims := fun _ => rfl

theorem ownCalLoad_acts (l : Link) (p : List Byte) (released : s.resetHeld = false) :
    Acts (.calLoad l p) s (ownCalLoad p s).2 := by
  unfold ownCalLoad
  split
  · exact (Works.refl s).acts
  · next may =>
    split
    · exact (Works.refl s).acts
    · have aborted := abortCapture_works .calLoad s
      have held : (abortCapture .calLoad s).resetHeld = false := by
        obtain ⟨_, _, e⟩ := abortCapture_frame .calLoad s
        rw [e]; exact released
      have loaded := (Works.of_calLoad (r := calibrationOf p) held).after aborted
      exact {
        toKeeps := loaded.toKeeps.trans (passToReady_keeps _)
        others := fun _ k _ => congrArg (PerLink.get · k) ((passToReady_links _).trans loaded.links)
        halt := fun halt => absurd halt (loadState_ne_halt (by simpa using may))
        trims := fun frozen _ _ _ => (congrArg DoseUnit.trims (passToReady_dose _)).trans (loaded.trims frozen) }

/-! ### RECIPE LOAD -/

theorem convertAccumulator_bounded (keep : Bool) (old : Option Recipe) (r : Recipe) (a : Int) :
    -accLimit r ≤ convertAccumulator keep old r a ∧ convertAccumulator keep old r a ≤ accLimit r := by
  have := accLimit_nonneg r
  unfold convertAccumulator keptAccumulator limitTo
  split
  · exact clamp_bounds _ (by omega)
  · omega

/-- The dose unit under a new current recipe keeps its bounds (R164, R165). -/
theorem doseBounded_install {r : Recipe} (keep : Bool) {st : Store} (current : st.current.map HeldRecipe.recipe = some r)
    (layout : st.layout = s.store.layout) (bounded : s.doseBounded) :
    { s with store := st, dose := doseInstall keep s.recipe r s.valveCount s.dose }.doseBounded := by
  have nonneg := accLimit_nonneg r
  obtain ⟨⟨length, count⟩, inUse, above, -, -⟩ := bounded
  let f : Valve → Valve := fun e => { e with accumulator := convertAccumulator keep s.recipe r e.accumulator }
  let g : Valve → Valve := fun e => { e with netWindow := [], alertArmed := true }
  let t : State := { s with store := st, dose := doseInstall keep s.recipe r s.valveCount s.dose }
  have valves : t.dose.valves = s.inUse.map (g ∘ f) ++ (s.dose.valves.drop s.valveCount).map g := by
    show ((mapUsed s.valveCount f s.dose.valves).map g) = _
    rw [mapUsed, List.map_append, List.map_map, State.inUse]
  have used : (s.inUse.map (g ∘ f)).length = s.valveCount := by simp [State.inUse]; omega
  have same : t.valveCount = s.valveCount := by
    show (st.layout.map Layout.valveCount).getD 0 = _
    rw [layout]; rfl
  have acc : t.accBound = accLimit r := by
    show ((st.current.map HeldRecipe.recipe).map accLimit).getD 0 = _
    rw [current]; rfl
  have line : t.lineBound = r.lineLimit := by
    show ((st.current.map HeldRecipe.recipe).map (fun r => (r.lineLimit : Int))).getD 0 = _
    rw [current]; rfl
  refine ⟨⟨?_, same ▸ count⟩, fun e he => ?_, fun e he => ?_, fun e he => ?_, ?_⟩
  · show t.dose.valves.length = 64
    rw [valves, List.length_append, used, List.length_map, List.length_drop]; omega
  · have he : e ∈ t.dose.valves.take t.valveCount := he
    rw [same, valves, List.take_left' used] at he
    obtain ⟨x, hx, rfl⟩ := List.mem_map.mp he
    exact inUse x hx
  · have he : e ∈ t.dose.valves.drop t.valveCount := he
    rw [same, valves, List.drop_left' used] at he
    obtain ⟨x, hx, rfl⟩ := List.mem_map.mp he
    rw [above x hx]; rfl
  · have he : e ∈ t.dose.valves := he
    show -t.accBound ≤ e.accumulator ∧ e.accumulator ≤ t.accBound
    rw [acc]
    rw [valves] at he
    rcases List.mem_append.mp he with he | he
    · obtain ⟨x, -, rfl⟩ := List.mem_map.mp he
      exact convertAccumulator_bounded ..
    · obtain ⟨x, hx, rfl⟩ := List.mem_map.mp he
      rw [above x hx]
      exact ⟨neg_nonpos.mpr nonneg, nonneg⟩
  · show -t.lineBound ≤ t.dose.lineOffset ∧ t.dose.lineOffset ≤ t.lineBound
    rw [line]
    have offset : t.dose.lineOffset = if keep then limitTo r.lineLimit s.dose.lineOffset else 0 := rfl
    rw [offset]
    split
    · exact limitTo_bounds ..
    · exact ⟨by omega, by omega⟩

/-- The store after an installation and the retirement of a previous recipe that no record carries (R160), with no previous recipe
held before. -/
theorem generationsAgree_installed {r : Recipe} {t : State} (none_held : s.store.previous = none)
    (agree : s.generationsAgree) (state : t.control.state = s.control.state) (queue : t.tracking.queue = s.tracking.queue)
    (store : t.store = { s.store.installed r with previous := s.store.current.filter (fun h => h.count ≠ 0) }) :
    t.generationsAgree := by
  obtain ⟨complete, held, current, -⟩ := agree
  have apart : ∀ g : Generation, g - 1 ≠ g := by decide
  have mine (c : CanRecord) (hc : c ∈ s.tracking.queue) : ∃ h, s.store.current = some h ∧ c.generation = h.generation := by
    rcases held c hc with mine | ⟨h, prev, -⟩
    · exact mine
    · rw [none_held] at prev; cases prev
  unfold State.generationsAgree
  rw [state, queue, store]
  refine ⟨fun settled => ?_, fun c hc => ?_, fun h e => ?_, fun h e => ?_⟩
  · have := complete settled
    simp only [Store.complete, Bool.and_eq_true] at this ⊢
    exact ⟨this.1, rfl⟩
  · obtain ⟨h, cur, same⟩ := mine c hc
    refine .inr ⟨h, ?_, same⟩
    have counted := (current h cur).1
    have some_ : 0 < carrying h.generation s.tracking.queue :=
      List.countP_pos_iff.mpr ⟨c, hc, by simp [same]⟩
    simp [cur]; omega
  · obtain rfl := Option.some.inj e
    refine ⟨?_, by show s.store.nextGeneration = s.store.nextGeneration + 1 - 1; exact (add_sub_cancel_right ..).symm⟩
    refine (List.countP_eq_zero.mpr fun c hc => ?_).symm
    obtain ⟨h, cur, same⟩ := mine c hc
    have := (current h cur).2
    simp [same, this]
  · have e : s.store.current.filter (fun h => h.count ≠ 0) = some h := e
    obtain ⟨cur, more⟩ := Option.filter_eq_some_iff.mp e
    obtain ⟨counted, gen⟩ := current h cur
    refine ⟨counted, Nat.pos_of_ne_zero (by simpa using more), ?_, nofun⟩
    rw [gen]
    exact (by decide : ∀ g : Generation, g - 1 = g + 1 - 2) _

theorem retireIfEmpty_frame (s : State) : ∃ a, retireIfEmpty s = { s with
    attention := a, store := { s.store with previous := s.store.previous.filter (fun h => h.count ≠ 0) } } := by
  unfold retireIfEmpty
  split
  · next h prev =>
    split
    · next zero => exact ⟨_, by simp [retirePrevious, raiseOn, State.setAtt, prev, zero, Option.filter_some]; rfl⟩
    · next more =>
      refine ⟨s.attention, ?_⟩
      simp only [prev, Option.filter_some, more, ne_eq, not_false_eq_true, decide_true, if_true]
      rw [← prev]
  · next prev =>
    refine ⟨s.attention, ?_⟩
    simp only [prev, Option.filter_none]
    rw [← prev]

theorem retireIfEmpty_works_attention (s : State) : s.attentionAgrees → (retireIfEmpty s).attentionAgrees := by
  unfold retireIfEmpty
  split
  · split
    · exact (raiseOn_works ..).attention
    · exact id
  · exact id

theorem Store.installed_previous (r : Recipe) {st : Store} (none_held : st.previous = none) :
    (st.installed r).previous = st.current := by
  unfold Store.installed
  cases st.current with
  | none => exact none_held
  | some h => rfl

/-- An installation with no previous recipe held, before the report to the state controller (R160); in READY the queue may have been
flushed before (R161). -/
theorem installRecipe_keeps (r : Recipe) (keep : Bool) {u : State} (before : Keeps s u)
    (none_held : s.generationsAgree → u.store.previous = none) : Keeps s (installRecipe r keep u) := by
  refine Keeps.trans ?_ (passToReady_keeps _)
  have attention := retireIfEmpty_works_attention
    { u with store := u.store.installed r, dose := doseInstall keep u.recipe r u.valveCount u.dose }
  obtain ⟨a, e⟩ := retireIfEmpty_frame
    { u with store := u.store.installed r, dose := doseInstall keep u.recipe r u.valveCount u.dose }
  rw [e] at attention ⊢
  exact {
    now := before.now
    pending := before.pending
    lineStop := before.lineStop
    attention := fun agree => attention (before.attention agree)
    capacity := fun fits => by
      obtain ⟨h1, h2, h3, h4, h5, h6, h7, h8, rest⟩ := before.capacity fits
      refine ⟨h1, h2, h3, h4, h5, h6, h7, fun e he => ?_, rest⟩
      obtain ⟨x, -, rfl⟩ := List.mem_map.mp he
      exact Nat.zero_le 8
    doses := fun bounded => doseBounded_install keep rfl rfl (before.doses bounded)
    generations := fun agree => generationsAgree_installed (none_held agree) (before.generations agree) rfl rfl
      (by dsimp only; rw [Store.installed_previous r (none_held agree)])
    platform := before.platform }

theorem installRecipe_frame (r : Recipe) (keep : Bool) (s : State) :
    ∃ a d st k, installRecipe r keep s = { s with attention := a, dose := d, store := st, control := k } := by
  unfold installRecipe passToReady
  obtain ⟨a, e⟩ := retireIfEmpty_frame
    { s with store := s.store.installed r, dose := doseInstall keep s.recipe r s.valveCount s.dose }
  rw [e]
  dsimp only
  split <;> exact ⟨_, _, _, _, rfl⟩

/-- A flush leaves no previous recipe, where the store and the queue agree (R161). -/
theorem flushQueue_previous (agree : s.generationsAgree) : (flushQueue s).store.previous = none := by
  obtain ⟨w, e⟩ := discardWeighing_frame (flushRecords s.tracking.queue (s.setQueue []))
  rw [flushQueue, e]
  show (flushRecords s.tracking.queue (s.setQueue [])).store.previous = none
  rw [(flushRecords_store s.tracking.queue (s.setQueue []) agree).1]

/-- From HALT an installation leaves the operating state. -/
theorem installRecipe_halt (r : Recipe) (keep : Bool) (halt : s.control.state = .halt) :
    (installRecipe r keep s).control.state = .halt := by
  obtain ⟨a, e⟩ := retireIfEmpty_frame
    { s with store := s.store.installed r, dose := doseInstall keep s.recipe r s.valveCount s.dose }
  unfold installRecipe
  rw [e]
  exact passToReady_state halt

theorem installRecipe_links (r : Recipe) (keep : Bool) (s : State) : (installRecipe r keep s).links = s.links := by
  obtain ⟨_, _, _, _, e⟩ := installRecipe_frame r keep s
  rw [e]

theorem ownRecipeLoad_acts (l : Link) (p : List Byte) (s : State) : Acts (.recipeLoad l p) s (ownRecipeLoad p s).2 := by
  unfold ownRecipeLoad
  dsimp only
  split
  · exact (Works.refl s).acts
  · split
    · exact (Works.refl s).acts
    · split
      · next none_held =>
        exact {
          toKeeps := installRecipe_keeps _ _ (.refl s) fun _ => none_held
          others := fun _ k _ => congrArg (PerLink.get · k) (installRecipe_links ..)
          halt := fun halt left => absurd (installRecipe_halt _ _ halt) left
          trims := fun _ _ other => absurd rfl (other l p) }
      · split
        · exact (Works.refl s).acts
        · have flushed := flushQueue_works s
          exact {
            toKeeps := installRecipe_keeps _ _ flushed.toKeeps flushQueue_previous
            others := fun _ k _ => congrArg (PerLink.get · k) ((installRecipe_links ..).trans flushed.links)
            halt := fun halt left => absurd (installRecipe_halt _ _ (flushed.halt halt)) left
            trims := fun _ _ other => absurd rfl (other l p) }

/-! ## The state requests (R171 to R176) -/

/-- An operating state is entered with the line stop released (R173). -/
theorem enterState_keeps {op : OpState} (other : op ≠ .halt) (settled : op ≠ .config → s.control.state ≠ .config)
    (weighing : s.platformAgrees → (∀ w, s.weigh.platform ≠ .dwell w) ∨ op.working = true) : Keeps s (enterState op s) where
  now := rfl
  pending := rfl
  lineStop := fun _ => iff_of_false nofun other
  attention := id
  capacity := id
  doses := id
  generations := fun ⟨complete, rest⟩ => ⟨fun h => complete (settled h), rest⟩
  platform := fun agree => by
    have weighs := weighing agree
    obtain ⟨h1, h2, h3, h4, h5, h6, h7, h8⟩ := agree
    refine ⟨h1, h2, h3, h4, h5, h6, fun w dwell => ⟨(h7 w dwell).1, ?_⟩, h8⟩
    rcases weighs with none_ | working
    · exact absurd dwell (none_ w)
    · exact working

theorem unconfirmedZero_works (s : State) : Works s (unconfirmedZero s) := .of_gate (g := { s.gate with unconfirmed := 0 }) id

theorem ownStart_acts (l : Link) (p : List Byte) (s : State) : Acts (.start l p) s (ownStart s).2 := by
  unfold ownStart
  split
  · exact (Works.refl s).acts
  · next may =>
    simp only [not_or, not_not] at may
    obtain ⟨ready, -⟩ := may
    have work := (unconfirmedZero_works _).after ((slipZero_works _).after (abortCapture_works .start s))
    have state : (unconfirmedZero (slipZero (abortCapture .start s))).control.state = .ready := by
      rcases work.control with ⟨same, -⟩ | ⟨run, -⟩
      · exact same.trans ready
      · rw [ready] at run; cases run
    exact {
      toKeeps := work.toKeeps.trans (enterState_keeps nofun (fun _ => by rw [state]; exact nofun) fun _ => .inr rfl)
      others := fun _ k _ => congrArg (PerLink.get · k) work.links
      halt := fun halt => by rw [ready] at halt; cases halt
      trims := fun frozen _ _ _ => work.trims frozen }

theorem ownStop_acts (s : State) : Acts (.stop .supervisor []) s (ownStop s).2 := by
  unfold ownStop
  split
  · exact (Works.refl s).acts
  · next may =>
    have working : s.control.state.working = true := by simpa using may
    have work := endWithCause_works .flushedDuringDwell s
    have settled := working_ne_config ((Control.halts_working work.control).trans working)
    exact {
      toKeeps := work.toKeeps.trans
        (enterState_keeps nofun (fun _ => settled) fun _ => .inl (endWithCause_platform .flushedDuringDwell s))
      others := fun _ k _ => congrArg (PerLink.get · k) work.links
      halt := fun _ _ => .inr (.inl rfl)
      trims := fun frozen _ _ _ => work.trims frozen }

theorem clearLine_keeps (allowed : clearAllowed s = true) : Keeps s (clearLine s) := by
  have halt : s.control.state = .halt := by simp only [clearAllowed, Bool.and_eq_true, beq_iff_eq] at allowed; exact allowed.1
  exact ((unconfirmedZero_works _).after (slipZero_works s)).toKeeps.trans
    (enterState_keeps nofun (fun _ => by show s.control.state ≠ .config; rw [halt]; exact nofun) fun _ => .inr rfl)

theorem cellFault_of_clearAllowed (allowed : clearAllowed s = true) : s.weigh.cellFault = false := by
  simp only [clearAllowed, Bool.and_eq_true, Bool.not_eq_true'] at allowed
  exact allowed.2

theorem ownClear_acts (s : State) : Acts (.clear .supervisor []) s (ownClear s).2 := by
  unfold ownClear
  split
  · next allowed =>
    exact {
      toKeeps := clearLine_keeps allowed
      others := fun _ _ _ => rfl
      halt := fun _ _ => .inr (.inr (.inr ⟨cellFault_of_clearAllowed allowed, .inl rfl⟩))
      trims := fun _ _ _ _ => rfl }
  · exact (Works.refl s).acts

theorem OpState.restarted_ne_halt (op : OpState) : op.restarted ≠ .halt := by cases op <;> exact nofun

theorem OpState.restarted_config {op : OpState} (h : op.restarted ≠ .config) : op ≠ .config := by rintro rfl; exact h rfl

/-- The dose unit at RESTART keeps its bounds (R125). -/
theorem restart_keeps (s : State) : Keeps s { s with dose := doseRestart s.dose } where
  now := rfl
  pending := rfl
  lineStop := id
  attention := id
  capacity := fun ⟨h1, h2, h3, h4, h5, h6, h7, _, rest⟩ => ⟨h1, h2, h3, h4, h5, h6, h7, fun e he => by
    obtain ⟨x, -, rfl⟩ := List.mem_map.mp he
    exact Nat.zero_le 8, rest⟩
  doses := fun ⟨⟨length, count⟩, inUse, above, _, _⟩ => by
    have nonneg := accBound_nonneg s
    have line : 0 ≤ s.lineBound := by
      unfold State.lineBound
      cases s.recipe with
      | none => exact le_rfl
      | some r => exact Int.natCast_nonneg _
    refine ⟨⟨by simpa [doseRestart] using length, count⟩, fun e he => ?_, fun e he => ?_, fun e he => ?_,
      neg_nonpos.mpr line, line⟩
    · unfold State.inUse at he
      dsimp only [doseRestart] at he
      rw [← List.map_take] at he
      obtain ⟨x, hx, rfl⟩ := List.mem_map.mp he
      have used := inUse x hx
      revert used
      dsimp only
      cases x.state <;> simp [ValveState.restarted]
    · dsimp only [doseRestart] at he
      rw [← List.map_drop] at he
      obtain ⟨x, hx, rfl⟩ := List.mem_map.mp he
      rw [above x hx]
      rfl
    · obtain ⟨x, -, rfl⟩ := List.mem_map.mp he
      exact ⟨neg_nonpos.mpr nonneg, nonneg⟩
  generations := id
  platform := id

theorem flushQueue_platform (s : State) (w : Weighing) : (flushQueue s).weigh.platform ≠ .dwell w := by
  unfold flushQueue discardWeighing
  split
  · exact nofun
  · next other => exact other w

theorem abortCapture_platform (c : AbortCause) (s : State) : (abortCapture c s).weigh.platform = s.weigh.platform := by
  unfold abortCapture
  split <;> rfl

theorem restartLine_acts (s : State) : Acts (.restart .supervisor []) s (restartLine s) := by
  have work := (unconfirmedZero_works _).after ((abortCapture_works .restart _).after ((slipZero_works _).after (flushQueue_works s)))
  have config := Control.halts_config work.control
  exact {
    toKeeps := work.toKeeps.trans ((restart_keeps _).trans (enterState_keeps (OpState.restarted_ne_halt _)
      (fun left => mt config.mp (OpState.restarted_config left))
      fun _ => .inl fun w => by
        show (abortCapture .restart (slipZero (flushQueue s))).weigh.platform ≠ _
        rw [abortCapture_platform]
        exact flushQueue_platform s w))
    others := fun _ k _ => congrArg (PerLink.get · k) work.links
    halt := fun _ _ => .inr (.inr (.inl rfl))
    trims := fun _ _ _ other => absurd rfl (other .supervisor []) }

/-! ## The freeze sources and the line command decoder (R121, R122, R178, R179) -/

theorem setFreeze_acts (i : Instr) (f : FreezeSet) (s : State) : Acts i s (setFreeze f s) where
  now := rfl
  pending := rfl
  lineStop := id
  attention := id
  capacity := id
  doses := id
  generations := id
  platform := id
  others := fun _ _ _ => rfl
  halt := fun halt left => absurd halt left
  trims := fun _ _ _ _ => rfl

/-- A change of the controller that leaves its state, its line stop and no more than that. -/
theorem setControl_works {k : Control} (state : k.state = s.control.state) (stop : k.lineStop = s.control.lineStop) :
    Works s (s.setControl k) := .of_control (.inl ⟨state, stop⟩)

theorem setDecoder_works (d : LineDecoder) (s : State) : Works s (setDecoder d s) := setControl_works rfl rfl

theorem abandonCommand_works (s : State) : Works s (abandonCommand s) := setControl_works rfl rfl

theorem badCount_works (s : State) : Works s (badCount s) := setControl_works rfl rfl

/-- What a command of the part's own may be, that hands a line command on. -/
def HandsLine (i : Instr) : Prop := i = .lineClear ∨ i = .lcmdFallingEdge ∨ i = .lcmdRisingEdge

theorem Acts.then_work {i : Instr} {t u : State} (h : Acts i s t) (work : Works t u) (dose : u.dose = t.dose) : Acts i s u where
  toKeeps := h.toKeeps.trans work.toKeeps
  others := fun event k other => (congrArg (PerLink.get · k) work.links).trans (h.others event k other)
  halt := fun halt left => h.halt halt fun still => left (work.halt still)
  trims := fun frozen event load restart => (congrArg DoseUnit.trims dose).trans (h.trims frozen event load restart)

theorem Acts.after_work {i : Instr} {t u : State} (h : Acts i t u) (work : Works s t) (fault : t.weigh.cellFault = s.weigh.cellFault) :
    Acts i s u where
  toKeeps := work.toKeeps.trans h.toKeeps
  others := fun event k other => (h.others event k other).trans (congrArg (PerLink.get · k) work.links)
  halt := fun halt left => fault ▸ h.halt (work.halt halt) left
  trims := fun frozen event load restart =>
    (h.trims ((frozen_congr work.freeze).trans frozen) event load restart).trans (work.trims frozen)

/-- A line command is taken or ignored, and the record of it is kept (R179). -/
theorem handLine_acts {i : Instr} {s : State} (n : Nat) {allowed : State → Bool} {act : State → State}
    (acts : allowed s = true → Acts i s (act s)) : Acts i s (handLine n allowed act s) := by
  unfold handLine
  dsimp only
  split
  · next may => exact (acts may).then_work (setControl_works rfl rfl) rfl
  · exact Works.acts (.of_control (.inl ⟨rfl, rfl⟩))

theorem clearLine_acts {i : Instr} (line : HandsLine i) (allowed : clearAllowed s = true) : Acts i s (clearLine s) where
  toKeeps := clearLine_keeps allowed
  others := fun _ _ _ => rfl
  halt := fun _ _ => .inr (.inr (.inr ⟨cellFault_of_clearAllowed allowed, .inr line⟩))
  trims := fun _ _ _ _ => rfl

theorem handClear_acts {i : Instr} (line : HandsLine i) (s : State) : Acts i s (handClear s) := handLine_acts 1 (clearLine_acts line)
theorem handFreeze_acts (i : Instr) (s : State) : Acts i s (handFreeze s) := handLine_acts 2 fun _ => setFreeze_acts ..
theorem handThaw_acts (i : Instr) (s : State) : Acts i s (handThaw s) := handLine_acts 3 fun _ => setFreeze_acts ..
theorem handFlush_acts (i : Instr) (s : State) : Acts i s (handFlush s) := handLine_acts 4 fun _ => (flushQueue_works s).acts
theorem handZeroCapture_acts (i : Instr) (s : State) : Acts i s (handZeroCapture s) :=
  handLine_acts 5 fun _ => (beginZeroCapture_works s).acts

theorem handCommand_acts {i : Instr} (line : HandsLine i) (n : Nat) (s : State) : Acts i s (handCommand n s) := by
  unfold handCommand
  split
  · exact handClear_acts line s
  · exact handFreeze_acts i s
  · exact handThaw_acts i s
  · exact handFlush_acts i s
  · exact handZeroCapture_acts i s
  · exact (badCount_works s).acts

theorem endCommand_acts {i : Instr} (n : Nat) {act : State → State} (acts : ∀ t, Acts i t (act t)) (s : State) :
    Acts i s (endCommand n act s) := by
  unfold endCommand
  split
  · exact (acts _).after_work (setDecoder_works .idle s) rfl
  · exact (Works.refl s).acts

theorem endBadCount_works (s : State) : Works s (endBadCount s) := by
  unfold endBadCount
  split
  · split
    · exact .refl s
    · exact (badCount_works _).after (setDecoder_works .idle s)
  · exact .refl s

theorem spellTimeout_works (s : State) : Works s (spellTimeout s) := by
  unfold spellTimeout
  split
  · exact abandonCommand_works s
  · split
    · exact setDecoder_works .idle s
    · exact .refl s

theorem settleSpell_acts {i : Instr} (line : HandsLine i) (s : State) : Acts i s (settleSpell s) := by
  unfold settleSpell
  split
  · exact (handCommand_acts line _ _).after_work (setDecoder_works .idle s) rfl
  · exact (spellTimeout_works s).acts

/-- An edge moves the decoder or abandons the command, and touches nothing else (R178). -/
theorem fallingEffect_cases (s : State) :
    fallingEffect s = s ∨ fallingEffect s = abandonCommand s ∨ ∃ d, fallingEffect s = setDecoder d s := by
  unfold fallingEffect
  split
  · exact .inr (.inr ⟨_, rfl⟩)
  · exact .inl rfl
  · split
    · exact .inr (.inr ⟨_, rfl⟩)
    · exact .inr (.inl rfl)
  · exact .inl rfl
  · split
    · exact .inr (.inr ⟨_, rfl⟩)
    · exact .inr (.inl rfl)
  · exact .inl rfl

theorem risingEffect_cases (s : State) :
    risingEffect s = s ∨ risingEffect s = abandonCommand s ∨ ∃ d, risingEffect s = setDecoder d s := by
  unfold risingEffect
  split
  · exact .inl rfl
  · split
    · exact .inr (.inr ⟨_, rfl⟩)
    · exact .inr (.inl rfl)
  · exact .inl rfl
  · split
    · exact .inr (.inr ⟨_, rfl⟩)
    · exact .inr (.inl rfl)
  · exact .inl rfl
  · exact .inl rfl

theorem edgeEffect_works {t : State} (effect : t = s ∨ t = abandonCommand s ∨ ∃ d, t = setDecoder d s) :
    Works s t ∧ t.dose = s.dose := by
  rcases effect with rfl | rfl | ⟨d, rfl⟩
  · exact ⟨.refl t, rfl⟩
  · exact ⟨abandonCommand_works s, rfl⟩
  · exact ⟨setDecoder_works d s, rfl⟩

theorem newSpell_works (high : Bool) (s : State) : Works s (newSpell high s) :=
  (Works.of_control (s := { s with pins := { s.pins with lcmdHigh := high } }) (k := { s.control with spellStart := s.now })
    (.inl ⟨rfl, rfl⟩)).after (.of_pins rfl)

theorem lineFalls_acts (s : State) : Acts .lcmdFallingEdge s (lineFalls s) := by
  unfold lineFalls
  split
  · exact (Works.refl s).acts
  · split
    · exact (newSpell_works ..).acts
    · obtain ⟨work, dose⟩ := edgeEffect_works (fallingEffect_cases (settleSpell s))
      exact ((settleSpell_acts (.inr (.inl rfl)) s).then_work work dose).then_work (newSpell_works ..) rfl

theorem lineRises_acts (s : State) : Acts .lcmdRisingEdge s (lineRises s) := by
  unfold lineRises
  split
  · exact (Works.refl s).acts
  · split
    · exact (newSpell_works ..).acts
    · obtain ⟨work, dose⟩ := edgeEffect_works (risingEffect_cases (settleSpell s))
      exact ((settleSpell_acts (.inr (.inr rfl)) s).then_work work dose).then_work (newSpell_works ..) rfl

end

/-! ## The resets (R34, R62, R97, R127, R168, R180, R194, R211) -/

section
variable (straps : Straps) (held : Bool) (s : State)

theorem resetBlocks_att (l : Link) : (resetBlocks straps held s).att l =
    Attention.powerUp (if held then none else some (s.now + attentionHold)) := by cases l <;> rfl

theorem powerUp_agrees (hold : Option Moment) : (Attention.powerUp hold).backed ∧ (Attention.powerUp hold).ordered :=
  ⟨fun _ => rfl, List.pairwise_singleton ..⟩

theorem resetBlocks_withinCapacity : (resetBlocks straps held s).withinCapacity :=
  ⟨Nat.zero_le _, Nat.zero_le _, Nat.zero_le _, nofun, Nat.zero_le _, Nat.zero_le _, Nat.zero_le _,
    fun e he => by rw [List.eq_of_mem_replicate he]; exact Nat.zero_le 8,
    fun l => by cases l <;> exact ⟨Nat.zero_le _, Nat.zero_le _⟩, Nat.zero_le _⟩

theorem resetBlocks_doseBounded : (resetBlocks straps held s).doseBounded :=
  ⟨⟨List.length_replicate, Nat.zero_le 64⟩, nofun, fun e he => List.eq_of_mem_replicate (List.mem_of_mem_drop he),
    fun e he => by rw [List.eq_of_mem_replicate he]; exact ⟨le_rfl, le_rfl⟩, le_rfl, le_rfl⟩

theorem resetBlocks_generationsAgree : (resetBlocks straps held s).generationsAgree := by
  simp [State.generationsAgree, resetBlocks, Control.reset, Tracking.reset, Store.reset]

theorem resetBlocks_platformAgrees : (resetBlocks straps held s).platformAgrees :=
  ⟨iff_of_true rfl rfl, iff_of_true rfl rfl, iff_of_true rfl rfl, iff_of_true rfl rfl, nofun, nofun, nofun, fun _ => rfl⟩

theorem resetBlocks_acts {i : Instr} (resets : i.resets = true) : Acts i s (resetBlocks straps held s) where
  now := rfl
  pending := rfl
  lineStop := fun _ => iff_of_false nofun nofun
  attention := fun _ l => by rw [resetBlocks_att]; exact powerUp_agrees _
  capacity := fun _ => resetBlocks_withinCapacity ..
  doses := fun _ => resetBlocks_doseBounded ..
  generations := fun _ => resetBlocks_generationsAgree ..
  platform := fun _ => resetBlocks_platformAgrees ..
  others := fun event => absurd resets (by simp [event])
  halt := fun _ _ => .inl resets
  trims := fun _ event => absurd resets (by simp [event])

theorem assertReset_acts : Acts .resetPinAssert s (assertReset s) := by
  unfold assertReset
  split
  · exact (Works.refl s).acts
  · exact resetBlocks_acts _ _ _ rfl

theorem releaseReset_acts : Acts (.resetPinRelease straps) s (releaseReset straps s) := by
  unfold releaseReset
  split
  · exact resetBlocks_acts _ _ _ rfl
  · exact (Works.refl s).acts

end

end Sys2Proof.Machine

/-! Every command and every step: what each keeps, and the obligations about them (O3, O15 to O24). -/

namespace Sys2Proof.Machine

section
variable {i : Instr} {l : Link} {k : Kind} {p : List Byte} {st : Option Position} {own : State → Served} {f : State → State} {s : State}

theorem served_works (link : i.link? = some l) (work : Works s (own s).2) : Acts i s (serve k l p st own s) :=
  serve_acts link fun _ _ _ => work.acts

theorem event_works (work : Works s (f s)) : Acts i s (unlessReset f s) := unlessReset_acts fun _ => work.acts

theorem linkEvent_works (link : i.link? = some l) (work : WorksOn l s (f s)) : Acts i s (unlessReset f s) :=
  unlessReset_acts fun _ => work.acts link

/-- A request without a payload that the supervisor link alone may send. -/
theorem served_supervisor {c : Link → List Byte → Instr} (link : (c l p).link? = some l)
    (only : permitted k l = true → l = .supervisor) (empty : lengthOk k p = true → p = [])
    (work : Acts (c .supervisor []) s (own s).2) : Acts (c l p) s (serve k l p st own s) :=
  serve_acts link fun _ may length => by
    obtain rfl := only may
    obtain rfl := empty length
    exact work

/-- A step on one channel: of its master link, or of none for the reader's. -/
theorem channelEvent_works {ch : Channel} (link : i.link? = masterOf ch)
    (work : (masterOf ch = none → Works s (f s)) ∧ ∀ l, masterOf ch = some l → WorksOn l s (f s)) :
    Acts i s (unlessReset f s) := by
  cases master : masterOf ch with
  | none => exact event_works (work.1 master)
  | some l => exact linkEvent_works (link.trans master) (work.2 l master)

end

/-- Every command completes, and keeps what `Acts` says. -/
theorem exec_acts (i : Instr) (s : State) : ∃ t, exec i s = .next t ∧ Acts i s t := by
  cases i with
  | fillReport l p stamp => exact ⟨_, rfl, served_works rfl (ownFillReport_works ..)⟩
  | doseQuery l p => exact ⟨_, rfl, served_works rfl (ownDoseQuery_works ..)⟩
  | valveHold l p => exact ⟨_, rfl, served_works rfl (withValve_works fun _ => holdValve_works)⟩
  | valveFree l p => exact ⟨_, rfl, served_works rfl (withValve_works fun _ => freeValve_works)⟩
  | valveAccept l p => exact ⟨_, rfl, served_works rfl (withValve_works fun _ => acceptValve_works)⟩
  | baseSet l p => exact ⟨_, rfl, served_works rfl (ownBaseSet_works ..)⟩
  | valveView l p => exact ⟨_, rfl, served_works rfl (ownValveView_works ..)⟩
  | valveViewClear l v => exact ⟨_, rfl, served_works rfl (ownValveView_works ..)⟩
  | layoutLoad l p => exact ⟨_, rfl, serve_acts rfl fun _ _ _ => ownLayoutLoad_acts ..⟩
  | calLoad l p => exact ⟨_, rfl, serve_acts rfl fun released _ _ => ownCalLoad_acts l p released⟩
  | recipeLoad l p => exact ⟨_, rfl, serve_acts rfl fun _ _ _ => ownRecipeLoad_acts ..⟩
  | recordRead l p => exact ⟨_, rfl, served_works rfl (ownRecordRead_works ..)⟩
  | start l p => exact ⟨_, rfl, serve_acts rfl fun _ _ _ => ownStart_acts ..⟩
  | stop l p =>
    exact ⟨_, rfl, served_supervisor rfl beq_iff_eq.mp (fun h => List.eq_nil_of_length_eq_zero (beq_iff_eq.mp h)) (ownStop_acts s)⟩
  | clear l p =>
    exact ⟨_, rfl, served_supervisor rfl beq_iff_eq.mp (fun h => List.eq_nil_of_length_eq_zero (beq_iff_eq.mp h)) (ownClear_acts s)⟩
  | flush l p => exact ⟨_, rfl, served_works rfl (ownFlush_works s)⟩
  | restart l p =>
    exact ⟨_, rfl, served_supervisor rfl beq_iff_eq.mp (fun h => List.eq_nil_of_length_eq_zero (beq_iff_eq.mp h)) (restartLine_acts s)⟩
  | freeze l p => exact ⟨_, rfl, serve_acts rfl fun _ _ _ => setFreeze_acts ..⟩
  | thaw l p => exact ⟨_, rfl, serve_acts rfl fun _ _ _ => setFreeze_acts ..⟩
  | thawAll l p => exact ⟨_, rfl, serve_acts rfl fun _ _ _ => setFreeze_acts ..⟩
  | zeroCapture l p => exact ⟨_, rfl, served_works rfl (ownZeroCapture_works s)⟩
  | spanCapture l p => exact ⟨_, rfl, served_works rfl (ownSpanCapture_works ..)⟩
  | captureResult l p => exact ⟨_, rfl, served_works rfl (.refl s)⟩
  | canListTake l p => exact ⟨_, rfl, served_works rfl (ownCanListTake_works ..)⟩
  | listLevelSet l p => exact ⟨_, rfl, served_works rfl (ownListLevelSet_works ..)⟩
  | queueView l p => exact ⟨_, rfl, served_works rfl (ownQueueView_works ..)⟩
  | statusRead l p => exact ⟨_, rfl, served_works rfl (.refl s)⟩
  | causeTake l p => exact ⟨_, rfl, served_works rfl (ownCauseTake_works ..)⟩
  | causeEnable l p => exact ⟨_, rfl, served_works rfl (ownCauseEnable_works ..)⟩
  | linkStats l p => exact ⟨_, rfl, serve_acts rfl fun _ _ _ => (ownLinkStats_works ..).acts rfl⟩
  | linkStatsClear l => exact ⟨_, rfl, serve_acts rfl fun _ _ _ => (ownLinkStats_works ..).acts rfl⟩
  | unknownKind l kind p => exact ⟨_, rfl, linkEvent_works rfl (serveUnknown_works ..)⟩
  | encoderPulse => exact ⟨_, rfl, event_works (countPulse_works s)⟩
  | eyeBlockingEdge => exact ⟨_, rfl, (eyeBlocks_works s).acts⟩
  | eyeClearingEdge => exact ⟨_, rfl, (eyeClears_works s).acts⟩
  | conversionComplete => exact ⟨_, rfl, event_works (completeConversion_works s)⟩
  | conversionOverflow => exact ⟨_, rfl, event_works (overflowConversion_works s)⟩
  | confirmInputActive => exact ⟨_, rfl, (confirmActive_works s).acts⟩
  | confirmQualified => exact ⟨_, rfl, event_works (confirmQualified_works s)⟩
  | confirmInputInactive => exact ⟨_, rfl, (confirmInactive_works s).acts⟩
  | confirmWindowExpiry => exact ⟨_, rfl, event_works (expireWindow_works s)⟩
  | rejectPulseEnd => exact ⟨_, rfl, event_works (rejectPulseEnd_works s)⟩
  | lcmdFallingEdge => exact ⟨_, rfl, lineFalls_acts s⟩
  | lcmdRisingEdge => exact ⟨_, rfl, lineRises_acts s⟩
  | lcmdSpellTimeout => exact ⟨_, rfl, event_works (spellTimeout_works s)⟩
  | lineClear => exact ⟨_, rfl, unlessReset_acts fun _ => endCommand_acts 1 (handClear_acts (.inl rfl)) s⟩
  | lineFreeze => exact ⟨_, rfl, unlessReset_acts fun _ => endCommand_acts 2 (handFreeze_acts _) s⟩
  | lineThaw => exact ⟨_, rfl, unlessReset_acts fun _ => endCommand_acts 3 (handThaw_acts _) s⟩
  | lineFlush => exact ⟨_, rfl, unlessReset_acts fun _ => endCommand_acts 4 (handFlush_acts _) s⟩
  | lineZeroCapture => exact ⟨_, rfl, unlessReset_acts fun _ => endCommand_acts 5 (handZeroCapture_acts _) s⟩
  | lineCommandBadCount => exact ⟨_, rfl, event_works (endBadCount_works s)⟩
  | characterReceived l data parityBit stopBit => exact ⟨_, rfl, linkEvent_works rfl (receiveCharacter_works ..)⟩
  | gapEntry l => exact ⟨_, rfl, linkEvent_works rfl (receiveGap_works ..)⟩
  | linkBreak l => exact ⟨_, rfl, linkEvent_works rfl (breakLink_works ..)⟩
  | pauseExpiry l => exact ⟨_, rfl, linkEvent_works rfl (expirePause_works ..)⟩
  | frameEntryTaken l => exact ⟨_, rfl, linkEvent_works rfl (takeFrameEntry_works ..)⟩
  | heldAnswerPlaced l => exact ⟨_, rfl, linkEvent_works rfl (placeHeld_works ..)⟩
  | characterSent ch => exact ⟨_, rfl, channelEvent_works rfl (sendCharacter_works ch s)⟩
  | readerCharacterReceived data parityBit stopBit => exact ⟨_, rfl, event_works (readerCharacter_works ..)⟩
  | readerGapEntry => exact ⟨_, rfl, event_works (readerGap_works s)⟩
  | readerBreak => exact ⟨_, rfl, event_works (breakReader_works s)⟩
  | readerEntryTaken => exact ⟨_, rfl, event_works (readerTake_works s)⟩
  | messageMatch => exact ⟨_, rfl, event_works (handleMessage_works s)⟩
  | attentionHoldExpiry l => exact ⟨_, rfl, event_works (expireHold_works ..)⟩
  | powerOn straps => exact ⟨_, rfl, resetBlocks_acts _ _ _ rfl⟩
  | resetPinAssert => exact ⟨_, rfl, assertReset_acts s⟩
  | resetPinRelease straps => exact ⟨_, rfl, releaseReset_acts straps s⟩
  | conversionStart => exact ⟨_, rfl, event_works (startConversion_works s)⟩
  | breakEnd ch => exact ⟨_, rfl, channelEvent_works rfl (endBreak_works ch s)⟩

/-- What is known of a command whose outcome is at hand. -/
theorem acts_of_exec {i : Instr} {s t : State} (run : exec i s = .next t) : Acts i s t := by
  obtain ⟨u, e, acts⟩ := exec_acts i s
  cases e.symm.trans run
  exact acts

/-! ## A step -/

/-- What the part does while no command waits moves no block: the clock, the count of free choices, the queue and the period
counter alone. -/
theorem idle_frame (s : State) : ∃ now choices pending period, idle s =
    { s with now := now, choices := choices, pending := pending, weigh := { s.weigh with period := period } } := by
  unfold idle
  split
  · unfold tick
    split
    · split
      · exact ⟨_, _, _, s.weigh.period, rfl⟩
      · exact ⟨_, _, _, _, rfl⟩
    · exact ⟨_, _, _, s.weigh.period, rfl⟩
  · exact ⟨_, _, _, s.weigh.period, rfl⟩
  · exact ⟨_, _, _, s.weigh.period, rfl⟩

/-- A property that no command loses and that the clock, the queue of commands and the period counter do not enter is kept by a
step. -/
theorem step_keeps {P : State → Prop} {s t : State} (holds : P s) (run : step s = .next t)
    (aside : ∀ (u : State) now choices pending period, P u →
      P { u with now := now, choices := choices, pending := pending, weigh := { u.weigh with period := period } })
    (kept : ∀ u v, Keeps u v → P u → P v) : P t := by
  unfold step at run
  split at run
  · cases run
    obtain ⟨_, _, _, _, e⟩ := idle_frame s
    rw [e]
    exact aside _ _ _ _ _ holds
  · next rest _ => exact kept _ _ (acts_of_exec run).toKeeps (aside s s.now s.choices rest s.weigh.period holds)

/-- Settles O3: `exec_acts` gives the next state, and that it touches neither. -/
theorem everyCommandCompletes : Obligations.EveryCommandCompletes := fun i s => by
  obtain ⟨t, run, acts⟩ := exec_acts i s
  exact ⟨t, run, acts.pending, acts.now⟩

/-- Settles O15: State.reset is what a reset with the straps low leaves, from itself. -/
theorem agreementsHoldAtReset : Obligations.AgreementsHoldAtReset := by
  have reset : State.reset = resetBlocks Straps.low false State.reset := rfl
  unfold Obligations.AgreementsHoldAtReset
  rw [reset]
  exact ⟨iff_of_false nofun nofun, fun l => by rw [resetBlocks_att]; exact powerUp_agrees _, resetBlocks_withinCapacity ..,
    resetBlocks_doseBounded .., resetBlocks_generationsAgree .., resetBlocks_platformAgrees ..⟩

/-- Settles O16: by `exec_acts`, command by command. -/
theorem stepKeepsLineStop : Obligations.StepKeepsLineStop := fun _ _ agrees run =>
  step_keeps agrees run (fun _ _ _ _ _ => id) fun _ _ kept => kept.lineStop

/-- Settles O17: by `exec_acts`, command by command. -/
theorem stepKeepsAttention : Obligations.StepKeepsAttention := fun _ _ agrees run =>
  step_keeps agrees run (fun _ _ _ _ _ => id) fun _ _ kept => kept.attention

/-- Settles O18: by `exec_acts`, command by command. -/
theorem stepKeepsCapacities : Obligations.StepKeepsCapacities := fun _ _ fits run =>
  step_keeps fits run (fun _ _ _ _ _ => id) fun _ _ kept => kept.capacity

/-- Settles O19: by `exec_acts`, command by command. -/
theorem stepKeepsDoseBounds : Obligations.StepKeepsDoseBounds := fun _ _ bounded run =>
  step_keeps bounded run (fun _ _ _ _ _ => id) fun _ _ kept => kept.doses

/-- Settles O20: by `exec_acts`, command by command. -/
theorem stepKeepsGenerations : Obligations.StepKeepsGenerations := fun _ _ agree run =>
  step_keeps agree run (fun _ _ _ _ _ => id) fun _ _ kept => kept.generations

/-- Settles O21: by `exec_acts`, command by command. -/
theorem stepKeepsPlatform : Obligations.StepKeepsPlatform := fun _ _ agree run =>
  step_keeps agree run (fun _ _ _ _ _ => id) fun _ _ kept => kept.platform

/-- Settles O22: by `exec_acts`, command by command. -/
theorem linksAreIndependent : Obligations.LinksAreIndependent := fun _ k _ _ event other run =>
  (acts_of_exec run).others event k other

/-- Settles O23: by `exec_acts`, command by command. -/
theorem haltIsLeftByRequest : Obligations.HaltIsLeftByRequest := fun _ _ _ halt run left => (acts_of_exec run).halt halt left

/-- Settles O24: by `exec_acts`, command by command. -/
theorem frozenPartHoldsItsTrims : Obligations.FrozenPartHoldsItsTrims := fun _ _ _ frozen event load restart run =>
  Prod.mk.inj ((acts_of_exec run).trims frozen event load restart)

end Sys2Proof.Machine

/-! The queue of commands and the resets (O1, O2, O12 to O14). -/

namespace Sys2Proof.Machine

/-! ## The queue of commands and the clock -/

/-- Settles O1: the model's own equation for a queue that is not empty. -/
theorem stepRunsFrontCommand : Obligations.StepRunsFrontCommand := fun _ _ _ => rfl

theorem pickFrom_mem {α : Type} (x : α) (rest : List α) (place : Nat) : pickFrom x rest place ∈ x :: rest := by
  have inside : place % (rest.length + 1) < (x :: rest).length := Nat.mod_lt _ (Nat.succ_pos _)
  rw [pickFrom, List.getD_eq_getElem _ _ inside]
  exact List.getElem_mem inside

theorem idle_of_due {s : State} (due : dueNow s ≠ []) :
    ∃ i n, i ∈ dueNow s ∧ idle s = { s with pending := [i], choices := n } := by
  unfold idle
  split
  · next none_ => exact absurd none_ due
  · next i one => exact ⟨i, s.choices, one ▸ List.mem_singleton_self i, rfl⟩
  · next i rest _ several => exact ⟨_, s.choices + 1, several ▸ pickFrom_mem i rest s.choice, rfl⟩

theorem idle_of_none_due {s : State} (due : dueNow s = []) : idle s = tick s := by
  rw [idle, due]

/-- Settles O2: with work due the pick is a member of the list of it, and without any the step is the tick of the clock. -/
theorem idleStep : Obligations.IdleStep := fun s empty => by
  have run : step s = .next (idle s) := by rw [step, empty]
  rw [run]
  refine ⟨fun due => ?_, fun due rest => ?_, fun due counts below => ?_, fun due counts full => ?_⟩
  · obtain ⟨i, n, mem, e⟩ := idle_of_due due
    exact ⟨i, n, mem, congrArg _ e⟩
  · rw [idle_of_none_due due, tick, rest, if_neg Bool.false_ne_true]
  · rw [idle_of_none_due due, tick, if_pos counts, if_neg (show ¬periodTop ≤ _ from not_le.mpr below)]
  · rw [idle_of_none_due due, tick, if_pos counts, if_pos (show periodTop ≤ _ from full)]

/-! ## The resets -/

/-- Settles O12: State.reset is written out, and the valve table is 64 copies of one entry. -/
theorem resetValues : Obligations.ResetValues := by
  have valves : ∀ e ∈ State.reset.dose.valves, e = Valve.reset := fun e mem => List.eq_of_mem_replicate mem
  refine ⟨rfl, rfl, rfl, rfl, rfl, rfl, rfl, rfl, rfl, rfl, rfl, rfl, rfl, rfl, rfl, rfl, rfl, rfl, rfl, rfl, rfl, rfl,
    List.length_replicate, fun e mem => ?_, rfl, rfl, rfl, rfl, rfl, rfl, rfl, rfl, rfl, fun l => ?_, rfl, rfl⟩
  · rw [valves e mem]
    exact ⟨rfl, rfl, rfl, rfl, rfl, rfl, rfl, rfl, rfl, rfl⟩
  · have enabled : ∀ c : Cause, c ∈ Cause.inOrder := by rintro ⟨⟩ <;> decide
    cases l <;> exact ⟨rfl, rfl, rfl, rfl, rfl, rfl, rfl, rfl, rfl, rfl, enabled, rfl⟩

theorem assertReset_of_released {s : State} (released : s.resetHeld = false) : assertReset s = resetBlocks s.straps true s := by
  rw [assertReset, released, if_neg Bool.false_ne_true]

theorem assertReset_of_held {s : State} (held : s.resetHeld = true) : assertReset s = s := by rw [assertReset, held, if_pos rfl]

theorem releaseReset_of_released {x : Straps} {s : State} (released : s.resetHeld = false) : releaseReset x s = s := by
  rw [releaseReset, released, if_neg Bool.false_ne_true]

theorem releaseReset_of_held {x : Straps} {s : State} (held : s.resetHeld = true) : releaseReset x s = resetBlocks x false s := by
  rw [releaseReset, held, if_pos rfl]

theorem resetBlocks_held (y : Straps) (s : State) : resetBlocks y true s = { State.reset with
    now := s.now, choices := s.choices, pending := s.pending, pins := s.pins, resetHeld := true
    control := Control.reset s.now
    links := { filler := MasterLink.reset y.filler, supervisor := MasterLink.reset y.supervisor,
               quality := MasterLink.reset y.quality }
    reader := Port.reset y.reader
    attention := everyLink (Attention.powerUp none) } := rfl

theorem resetBlocks_released (y : Straps) (s : State) : resetBlocks y false s = { State.reset with
    now := s.now, choices := s.choices, pending := s.pending, pins := s.pins, resetHeld := false
    gate := { GateUnit.reset with qualify := if s.pins.confirm = true then some s.now else none }
    control := Control.reset s.now
    links := { filler := MasterLink.reset y.filler, supervisor := MasterLink.reset y.supervisor,
               quality := MasterLink.reset y.quality }
    reader := Port.reset y.reader
    attention := everyLink (Attention.powerUp (some (s.now + 10000000))) } := rfl

/-- Settles O13: each of the three is the reset of the blocks, or nothing, by the pin. -/
theorem resetCommands : Obligations.ResetCommands := fun x s => by
  refine ⟨?_, fun released => ?_, fun held => ?_, fun held => ?_, fun released => ?_⟩
  · show Host.Outcome.next (resetBlocks x s.resetHeld s) = _
    cases s.resetHeld with
    | true => rw [resetBlocks_held]; rfl
    | false => simp only [resetBlocks_released, true_and]; rfl
  · show Host.Outcome.next (assertReset s) = _
    rw [assertReset_of_released released, resetBlocks_held]; rfl
  · exact congrArg Host.Outcome.next (assertReset_of_held held)
  · show Host.Outcome.next (releaseReset x s) = _
    simp only [releaseReset_of_held held, resetBlocks_released, true_and]; rfl
  · exact congrArg Host.Outcome.next (releaseReset_of_released released)

/-! ## While the reset pin is held -/

/-- What is noted while the reset pin is held: the levels of the pins, the moment of the edge from which the line command spell is
timed, and the end of a qualification. -/
def Noted (s t : State) : Prop :=
  ∃ pins spell gate, t = { s with pins := pins, control := { s.control with spellStart := spell }, gate := gate } ∧
    (gate = s.gate ∨ gate = { s.gate with confirmLevel := false, qualify := none })

section
variable {s : State}

theorem Noted.refl (s : State) : Noted s s := ⟨s.pins, s.control.spellStart, s.gate, rfl, .inl rfl⟩

theorem noted_pins (p : Pins) : Noted s { s with pins := p } := ⟨p, s.control.spellStart, s.gate, rfl, .inl rfl⟩

theorem noted_newSpell (high : Bool) : Noted s (newSpell high s) := ⟨_, s.now, s.gate, rfl, .inl rfl⟩

variable (held : s.resetHeld = true)
include held

theorem unlessReset_noted (f : State → State) : Noted s (unlessReset f s) := by
  rw [unlessReset_of_held held]
  exact .refl s

theorem serve_noted (k : Kind) (l : Link) (p : List Byte) (st : Option Position) (own : State → Served) :
    Noted s (serve k l p st own s) := by
  rcases serve_cases k l p st own s with ⟨-, e⟩ | ⟨released, -⟩
  · rw [e]; exact .refl s
  · rw [held] at released; cases released

theorem eyeEdge_noted (blocked : Bool) (f : State → State) : Noted s (eyeEdge blocked f s) := by
  have still : ({ s with pins := { s.pins with eye := blocked } } : State).resetHeld = true := held
  rw [eyeEdge, unlessReset_of_held still]
  exact noted_pins _

theorem confirmActive_noted : Noted s (confirmActive s) := by
  unfold confirmActive
  split
  · exact .refl s
  · exact noted_pins _

theorem lineFalls_noted : Noted s (lineFalls s) := by
  unfold lineFalls
  rw [held, if_pos rfl]
  split
  · exact .refl s
  · exact noted_newSpell false

theorem lineRises_noted : Noted s (lineRises s) := by
  unfold lineRises
  rw [held, if_pos rfl]
  split
  · exact .refl s
  · exact noted_newSpell true

/-- A request is not served and an event moves nothing but the pins. -/
theorem exec_noted {i : Instr} (event : i.resets = false) : ∃ t, exec i s = .next t ∧ Noted s t := by
  cases frame : i.frame? with
  | some f =>
    rcases exec_of_frame frame with ⟨k, own, -, served⟩ | rfl
    · exact ⟨_, served s, serve_noted held ..⟩
    · exact ⟨_, rfl, unlessReset_noted held _⟩
  | none =>
    cases i with
    | eyeBlockingEdge => exact ⟨_, rfl, eyeEdge_noted held ..⟩
    | eyeClearingEdge => exact ⟨_, rfl, eyeEdge_noted held ..⟩
    | confirmInputActive => exact ⟨_, rfl, confirmActive_noted held⟩
    | confirmInputInactive => exact ⟨_, rfl, ⟨_, s.control.spellStart, _, rfl, .inr rfl⟩⟩
    | lcmdFallingEdge => exact ⟨_, rfl, lineFalls_noted held⟩
    | lcmdRisingEdge => exact ⟨_, rfl, lineRises_noted held⟩
    | powerOn _ | resetPinAssert | resetPinRelease _ => cases event
    | encoderPulse | conversionComplete | conversionOverflow | conversionStart | confirmQualified | confirmWindowExpiry
    | rejectPulseEnd | lcmdSpellTimeout | lineClear | lineFreeze | lineThaw | lineFlush | lineZeroCapture | lineCommandBadCount
    | characterReceived _ _ _ _ | gapEntry _ | linkBreak _ | breakEnd _ | pauseExpiry _ | frameEntryTaken _ | heldAnswerPlaced _
    | characterSent _ | readerCharacterReceived _ _ _ | readerGapEntry | readerBreak | readerEntryTaken | messageMatch
    | attentionHoldExpiry _ => exact ⟨_, rfl, unlessReset_noted held _⟩
    | _ => cases frame

end

/-- The output pins stand at their released or off levels while the reset pin is held (R215). -/
theorem outputs_of_held {t : State} (held : t.resetHeld = true) :
    t.pinReject = false ∧ t.pinLineStop = false ∧ (∀ l, t.pinAttention l = true) ∧ (∀ ch, t.pinTransmit ch = true) := by
  refine ⟨by simp [State.pinReject, held], by simp [State.pinLineStop, held], fun l => by simp [State.pinAttention, held],
    fun ch => ?_⟩
  unfold State.pinTransmit
  split
  · rfl
  · rw [held, Bool.true_or]

/-- Settles O14: by `exec_noted`, command by command. -/
theorem nothingTakenWhileResetHeld : Obligations.NothingTakenWhileResetHeld := fun i s t held event run => by
  obtain ⟨u, e, pins, spell, gate, rfl, gates⟩ := exec_noted held event
  cases e.symm.trans run
  have still : s.resetHeld = true := held
  refine ⟨?_, gates, outputs_of_held still⟩
  rcases gates with rfl | rfl <;> rfl

end Sys2Proof.Machine

/-! The bytes of the answers, field by field (O60). -/

namespace Sys2Proof.Machine

/-! ## Integers (section 12.1) -/

theorem toNat_byte (n : Nat) : (BitVec.ofNat 8 n).toNat = n % 256 := BitVec.toNat_ofNat ..

theorem u8_value {n : Nat} (fits : n < 256) : ∃ a : Byte, u8 n = [a] ∧ a.toNat = n :=
  ⟨_, rfl, (toNat_byte n).trans (Nat.mod_eq_of_lt fits)⟩

theorem u16_value {n : Nat} (fits : n < 65536) : ∃ a b : Byte, u16 n = [a, b] ∧ a.toNat * 256 + b.toNat = n := by
  refine ⟨_, _, rfl, ?_⟩
  rw [toNat_byte, toNat_byte]
  omega

theorem u24_value {n : Nat} (fits : n < 16777216) :
    ∃ a b c : Byte, u24 n = [a, b, c] ∧ (a.toNat * 256 + b.toNat) * 256 + c.toNat = n := by
  refine ⟨_, _, _, rfl, ?_⟩
  rw [toNat_byte, toNat_byte, toNat_byte]
  omega

theorem u32_value {n : Nat} (fits : n < 4294967296) : ∃ a b c d : Byte, u32 n = [a, b, c, d] ∧
    ((a.toNat * 256 + b.toNat) * 256 + c.toNat) * 256 + d.toNat = n := by
  refine ⟨_, _, _, _, rfl, ?_⟩
  rw [toNat_byte, toNat_byte, toNat_byte, toNat_byte]
  omega

/-- Two's complement: a negative number stands as itself with the modulus added (section 12.1). -/
theorem toNat_ofInt_signed (w : Nat) {x : Int} (low : -(2 ^ w : Int) ≤ x) (high : x < 2 ^ w) :
    (BitVec.ofInt w x).toNat = (if x < 0 then x + 2 ^ w else x).toNat := by
  rw [BitVec.toNat_ofInt]
  congr 1
  push_cast
  split
  · next negative =>
    rw [← Int.add_emod_right]
    exact Int.emod_eq_of_lt (by omega) (by omega)
  · exact Int.emod_eq_of_lt (by omega) high

theorem s16_eq_u16 {x : Int} (low : -32768 ≤ x) (high : x < 32768) :
    s16 x = u16 (if x < 0 then x + 65536 else x).toNat := by
  rw [s16, toNat_ofInt_signed 16 (by omega) (by omega)]; rfl

theorem s24_eq_u24 {x : Int} (low : -8388608 ≤ x) (high : x < 8388608) :
    s24 x = u24 (if x < 0 then x + 16777216 else x).toNat := by
  rw [s24, toNat_ofInt_signed 24 (by omega) (by omega)]; rfl

theorem s32_eq_u32 {x : Int} (low : -2147483648 ≤ x) (high : x < 2147483648) :
    s32 x = u32 (if x < 0 then x + 4294967296 else x).toNat := by
  rw [s32, toNat_ofInt_signed 32 (by omega) (by omega)]; rfl

/-! ## Masks (R213) -/

section
variable {α : Type} [DecidableEq α]

theorem maskOf_lt (order members : List α) : maskOf order members < 2 ^ order.length := by
  induction order with
  | nil => exact Nat.one_pos
  | cons m rest ih =>
    rw [maskOf, List.length_cons, Nat.pow_succ]
    split <;> omega

/-- A bit of a mask is set exactly for a member. -/
theorem maskOf_bit (members : List α) : ∀ (order : List α) (i : Nat) (inside : i < order.length),
    maskOf order members / 2 ^ i % 2 = 1 ↔ order[i] ∈ members
  | m :: rest, 0, _ => by
    rw [maskOf, pow_zero, Nat.div_one, List.getElem_cons_zero]
    split
    · next mem => exact iff_of_true (by omega) mem
    · next not_mem => exact iff_of_false (by omega) not_mem
  | m :: rest, i + 1, inside => by
    have half : maskOf (m :: rest) members / 2 = maskOf rest members := by
      rw [maskOf]; split <;> omega
    rw [pow_succ', ← Nat.div_div_eq_div_mul, half, List.getElem_cons_succ]
    exact maskOf_bit members rest i (Nat.lt_of_succ_lt_succ inside)

end

theorem Reason.inOrder_rank (r : Reason) : Reason.inOrder[r.rank - 1]? = some r := by cases r <;> rfl

theorem reasonMask_bit (rs : List Reason) (r : Reason) :
    maskOf Reason.inOrder rs / 2 ^ (r.rank - 1) % 2 = 1 ↔ r ∈ rs := by
  obtain ⟨inside, here⟩ := List.getElem?_eq_some_iff.mp (Reason.inOrder_rank r)
  rw [maskOf_bit rs _ _ inside, here]

/-! ## Flags, optional fields and weights -/

theorem flagByte_eq (b : Bool) : flagByte b = if b = true then [1] else [0] := by cases b <;> rfl

theorem withPresence_generation (g : Option Generation) :
    withPresence u8 (g.map BitVec.toNat) = match g with
      | some x => [1, x]
      | none => [0, 0] := by
  cases g with
  | none => rfl
  | some x =>
    show [1] ++ u8 x.toNat = [1, x]
    rw [u8_toNat]; rfl

theorem weights_append (rd : Option Reading) (rest : List Byte) :
    s24 (readingGross rd) ++ (s24 (readingNet rd) ++ rest) = (match rd with
      | some (.valid g n) => s24 g ++ s24 n
      | _ => [0, 0, 0, 0, 0, 0]) ++ rest := by
  have zeros : s24 0 ++ (s24 0 ++ rest) = [0, 0, 0, 0, 0, 0] ++ rest := rfl
  rcases rd with _ | ⟨_, _⟩ | _
  · exact zeros
  · exact (List.append_assoc ..).symm
  · exact zeros

theorem text_append (q : Option (List Byte)) (rest : List Byte) : u8 (q.getD []).length ++ (q.getD [] ++ rest) = (match q with
      | some q => u8 q.length ++ q
      | none => [0]) ++ rest := by
  cases q with
  | none => rfl
  | some q => exact (List.append_assoc ..).symm

theorem holderField_eq (v : ValveState) : u8 (holderField v) = match v with
    | .blocked h => u8 (holderCode h)
    | _ => [0] := by
  cases v <;> rfl

theorem probationLeft_eq (v : ValveState) : u8 v.probationLeft = match v with
    | .probation n => u8 n
    | _ => [0] := by
  cases v <;> rfl

/-! ## The records and views -/

theorem controlItems_eq (c : Control) : controlItems c = u8 c.state.code ++ (if c.lineStop = true then [1] else [0]) ++ u16 c.errors ++
    (match c.lastCommand with
      | some k => u8 k.number ++ [if k.taken = true then 0 else 1]
      | none => [0, 0]) := by
  rw [controlItems, flagByte_eq]
  rcases c.lastCommand with _ | ⟨n, taken⟩
  · simp [u8]
  · cases taken <;> simp [u8, outcomeCode]

theorem captureNow_eq (c : Capture) : captureNow c = if c.outcome = .inProgress then c.kind.code else 0 := by
  simp [captureNow, Capture.inProgress]

theorem flow_eq (f : FlowState) : u8 f.code = [if f = .held then 1 else 0] := by cases f <;> rfl

theorem heldRecipe_presence (h : Option HeldRecipe) :
    withPresence u8 (h.map (fun h => h.generation.toNat)) = match h.map HeldRecipe.generation with
      | some x => [1, x]
      | none => [0, 0] := by
  rw [← withPresence_generation, Option.map_map]; rfl

theorem reportedTrim_eq (s : State) (e : Valve) : reportedTrim s e = match s.store.current with
    | some h => trimOf e.accumulator h.recipe.shift
    | none => 0 := by
  unfold reportedTrim State.recipe
  cases s.store.current <;> rfl

theorem presentBytes_some {α : Type} (f : α → List Byte) (x : α) : presentBytes f (some x) = [1] ++ f x := rfl

theorem heldRecipeBytes_present (h : HeldRecipe) :
    presentBytes heldRecipeBytes (some h) = [1, h.generation] ++ (recipeBytes h.recipe false) := by
  simp only [presentBytes_some, heldRecipeBytes, u8_toNat, List.cons_append, List.nil_append]

theorem recipeBytes_eq (r : Recipe) (before : List Byte) : before ++ recipeBytes r false =
    before ++ u24 r.targetNet ++ u16 r.tolUnder ++ u16 r.tolOver ++ u16 r.tareNominal ++ u16 r.nominalDose ++ u16 r.doseMin ++
      u16 r.doseMax ++ u8 r.gain ++ u8 r.shift ++ u16 r.trimLimit ++ u16 r.deadBand ++ u8 r.limitAlarm ++ u8 r.ootAlarm ++
      u16 r.lineLimit ++ u8 r.centerThreshold ++ u8 r.centerEvery ++ u8 r.probationCount ++ u16 r.alertBand ++
      (if r.codeRequired = true then [1] else [0]) ++ [0] ++
      (match r.codePattern with
        | some q => u8 q.length ++ q
        | none => [0]) := by
  have clear : flagByte false = [0] := rfl
  unfold recipeBytes
  simp only [List.append_assoc]
  rw [flagByte_eq r.codeRequired, clear]
  generalize r.codePattern = q
  cases q with
  | none => rfl
  | some q => rfl

/-! ## The obligation -/

/-- Settles O60: the parts of each layout that the statement writes another way are the lemmas above. -/
theorem answerLayouts : Obligations.AnswerLayouts := by
  refine ⟨⟨fun n => u8_value, fun n => u16_value, fun n => u24_value, fun n => u32_value, fun x => s16_eq_u16, fun x => s24_eq_u24,
    fun x => s32_eq_u32, fun rs r => ⟨maskOf_lt Reason.inOrder rs, reasonMask_bit rs r⟩⟩,
    ⟨rfl, rfl, rfl, rfl, rfl, fun _ _ => rfl, rfl, rfl, fun _ => rfl, rfl, rfl, rfl, rfl, fun _ => rfl, rfl, rfl, rfl, rfl, rfl⟩,
    fun l s => ?_, fun c => rfl, fun x c => ?_, fun m => ?_, fun v s => ?_, fun r => ⟨rfl, rfl⟩, fun k => ⟨rfl, rfl⟩, fun h => ?_,
    rfl, rfl, rfl⟩
  · simp only [statusBytes, controlItems_eq, storeItems, trackingItems, weighItems, gateItems, listDoseCodeItems, attentionItems,
      flagByte_eq, heldRecipe_presence, captureNow_eq, flow_eq, FreezeSet.mask, List.append_assoc] <;> rfl
  · simp only [recordViewBytes, weights_append, u8_toNat, List.append_assoc] <;> rfl
  · simp only [summaryBytes, weights_append, text_append, flagByte_eq, u8_toNat, List.append_assoc] <;> rfl
  · simp only [valveViewBytes, holderField_eq, probationLeft_eq, reportedTrim_eq, reportedDose, flagByte_eq, List.append_assoc] <;> rfl
  · exact (heldRecipeBytes_present h).trans (recipeBytes_eq h.recipe _)

end Sys2Proof.Machine

/-! The requests that read, and the causes (O11, O59). -/

namespace Sys2Proof.Machine

/-! ## The length of STATUS READ (R205) -/

@[simp] theorem length_u8 (n : Nat) : (u8 n).length = 1 := rfl
@[simp] theorem length_u16 (n : Nat) : (u16 n).length = 2 := rfl
@[simp] theorem length_u24 (n : Nat) : (u24 n).length = 3 := rfl
@[simp] theorem length_s16 (x : Int) : (s16 x).length = 2 := rfl
@[simp] theorem length_flagByte (b : Bool) : (flagByte b).length = 1 := rfl

@[simp] theorem length_withPresence_u8 (x : Option Nat) : (withPresence u8 x).length = 2 := by cases x <;> rfl

theorem length_statusBytes (l : Link) (s : State) : (statusBytes l s).length = 48 := by
  simp [statusBytes, controlItems, storeItems, trackingItems, weighItems, gateItems, listDoseCodeItems, attentionItems]

/-! ## The requests that read (R33, R61, R142, R143, R148, R193, R205) -/

section
variable {l : Link} {s : State}

theorem permitted_view (other : l ≠ .filler) : permitted .queueView l = true ∧ permitted .recordRead l = true ∧
    permitted .valveView l = true := by
  cases l with
  | filler => exact absurd rfl other
  | supervisor => exact ⟨rfl, rfl, rfl⟩
  | quality => exact ⟨rfl, rfl, rfl⟩

theorem ownQueueView_of_range {start n : Byte} (outside : 191 < start.toNat ∨ n.toNat < 1 ∨ 8 < n.toNat) :
    ownQueueView [start, n] s = refuse .range s := if_pos outside

theorem ownQueueView_of_inside {start n : Byte} (first : start.toNat ≤ 191) (some_ : 1 ≤ n.toNat) (most : n.toNat ≤ 8) :
    let views := (s.tracking.queue.drop start.toNat).take (min n.toNat 5)
    ownQueueView [start, n] s = (.ok (u24 s.tracking.position.toNat ++ u8 s.tracking.queue.length ++ [start] ++
      u8 views.length ++ views.flatMap (recordViewBytes s.tracking.position)), s) := by
  have inside : ¬(191 < start.toNat ∨ n.toNat < 1 ∨ 8 < n.toNat) := by omega
  intro views
  rw [← u8_toNat start]
  exact if_neg inside

theorem ownRecordRead_of_byte (x : Byte) : ownRecordRead [x] s =
    if x.toNat = 0 then (.ok (presentBytes layoutBytes s.store.layout), s)
    else if x.toNat = 1 then (.ok (presentBytes calibrationBytes s.store.calibration), s)
    else if x.toNat = 2 then (.ok (presentBytes heldRecipeBytes s.store.current), s)
    else if x.toNat = 3 then (.ok (presentBytes heldRecipeBytes s.store.previous), s)
    else refuse .range s := rfl

theorem flagAt_of_large {p : List Byte} {i : Nat} (large : 1 < u8At p i) : flagAt p i = none := by
  rw [flagAt, if_neg (by omega), if_neg (by omega)]

theorem ownValveView_of_outside {v x : Byte} (outside : v.toNat < 1 ∨ s.valveCount < v.toNat) :
    ownValveView l [v, x] s = refuse .range s := by
  have invalid : s.valveInRange (u8At [v, x] 0) = false := by
    rw [← Bool.not_eq_true, valveInRange_iff]
    exact fun inside => by
      have : 1 ≤ v.toNat ∧ v.toNat ≤ s.valveCount := inside
      omega
  simp only [ownValveView, invalid, Bool.not_false, if_true]

theorem ownValveView_of_inside {v x : Byte} (first : 1 ≤ v.toNat) (last : v.toNat ≤ s.valveCount) :
    ownValveView l [v, x] s = match flagAt [v, x] 1 with
      | none => refuse .range s
      | some false => (.ok (valveViewBytes v.toNat s), s)
      | some true =>
        if l = .quality then refuse .link s
        else (.ok (valveViewBytes v.toNat s), s.setValve v.toNat { s.valve v.toNat with weighed := 0, rejected := 0 }) := by
  have valid : s.valveInRange (u8At [v, x] 0) = true := (valveInRange_iff ..).mpr ⟨first, last⟩
  simp only [ownValveView, valid, Bool.not_true, Bool.false_eq_true, if_false]
  rfl

theorem statsBytes_eq (m : MasterLink) : statsBytes m = u16 m.counts.characterErrors ++ u16 m.counts.overruns ++
    u16 m.counts.frameTimeouts ++ u16 m.counts.checkErrors ++ [if m.pause = none then 0 else 1] := by
  rw [statsBytes, flagByte_eq]
  cases m.pause <;> rfl

end

theorem serve_queueView {l : Link} {s : State} {start n : Byte} (other : l ≠ .filler)
    (awaits : s.awaits ⟨l, Kind.queueView.code, [start, n], none⟩) : exec (.queueView l [start, n]) s =
      .next (answer l 0x19 (ownQueueView [start, n] s).1 (ownQueueView [start, n] s).2) :=
  next_serve_of_awaits _ awaits (permitted_view other).1 rfl

theorem serve_recordRead {l : Link} {s : State} {x : Byte} (other : l ≠ .filler)
    (awaits : s.awaits ⟨l, Kind.recordRead.code, [x], none⟩) : exec (.recordRead l [x]) s =
      .next (answer l 0x0B (ownRecordRead [x] s).1 (ownRecordRead [x] s).2) :=
  next_serve_of_awaits _ awaits (permitted_view other).2.1 rfl

theorem serve_valveView {l : Link} {s : State} {v x : Byte} (other : l ≠ .filler)
    (awaits : s.awaits ⟨l, Kind.valveView.code, [v, x], none⟩) : exec (.valveView l [v, x]) s =
      .next (answer l 0x07 (ownValveView l [v, x] s).1 (ownValveView l [v, x] s).2) :=
  next_serve_of_awaits _ awaits (permitted_view other).2.2 rfl

theorem serve_valveViewClear {l : Link} {s : State} {v : Byte} (other : l ≠ .filler)
    (awaits : s.awaits ⟨l, Kind.valveView.code, [v, 1], none⟩) : exec (.valveViewClear l v) s =
      .next (answer l 0x07 (ownValveView l [v, 1] s).1 (ownValveView l [v, 1] s).2) :=
  next_serve_of_awaits _ awaits (permitted_view other).2.2 rfl

theorem serve_linkStats {l : Link} {s : State} {x : Byte} (awaits : s.awaits ⟨l, Kind.linkStats.code, [x], none⟩) :
    exec (.linkStats l [x]) s = .next (answer l 0x1D (ownLinkStats l [x] s).1 (ownLinkStats l [x] s).2) :=
  next_serve_of_awaits _ awaits (by cases l <;> rfl) rfl

theorem serve_linkStatsClear {l : Link} {s : State} (awaits : s.awaits ⟨l, Kind.linkStats.code, [1], none⟩) :
    exec (.linkStatsClear l) s = .next (answer l 0x1D (ownLinkStats l [1] s).1 (ownLinkStats l [1] s).2) :=
  next_serve_of_awaits _ awaits (by cases l <;> rfl) rfl

/-- Settles O11: each request is served by its owner, whose answer is read off by the value of its field. -/
theorem readsAndViews : Obligations.ReadsAndViews := by
  refine ⟨⟨fun l start n s other awaits first some_ most => ?_, fun l start n s other awaits outside => ?_,
    fun l s awaits => ⟨next_serve_of_awaits _ awaits (by cases l <;> rfl) rfl, length_statusBytes l s⟩,
    fun s awaits => next_serve_of_awaits _ awaits rfl rfl, fun l x s other awaits => ?_,
    fun l v s other awaits => ⟨fun first last => ?_, fun outside => ?_⟩, fun l v x s other large awaits => ?_⟩,
    fun l v s other awaits => ⟨fun outside => ?_, fun first last quality => ?_, fun first last supervisor => ?_⟩,
    fun l s => ⟨fun awaits => ?_, fun x large awaits => ?_, fun awaits => ?_⟩⟩
  · rw [serve_queueView other awaits, ownQueueView_of_inside first some_ most]
  · rw [serve_queueView other awaits, ownQueueView_of_range outside]; rfl
  · rw [serve_recordRead other awaits, ownRecordRead_of_byte]
    refine ⟨?_, ?_, ?_, ?_, fun large => ?_⟩
    · rintro rfl; rfl
    · rintro rfl; rfl
    · rintro rfl; rfl
    · rintro rfl; rfl
    · rw [if_neg (by omega), if_neg (by omega), if_neg (by omega), if_neg (by omega)]; rfl
  · rw [serve_valveView other awaits, ownValveView_of_inside first last]; rfl
  · rw [serve_valveView other awaits, ownValveView_of_outside outside]; rfl
  · rw [serve_valveView other awaits]
    by_cases inside : 1 ≤ v.toNat ∧ v.toNat ≤ s.valveCount
    · rw [ownValveView_of_inside inside.1 inside.2, flagAt_of_large (show 1 < u8At [v, x] 1 from large)]; rfl
    · rw [ownValveView_of_outside (show v.toNat < 1 ∨ s.valveCount < v.toNat by omega)]; rfl
  · rw [serve_valveViewClear other awaits, ownValveView_of_outside outside]; rfl
  · rw [serve_valveViewClear other awaits, ownValveView_of_inside first last, quality]; rfl
  · rw [serve_valveViewClear other awaits, ownValveView_of_inside first last, supervisor]; rfl
  · rw [serve_linkStats awaits, ← statsBytes_eq]; rfl
  · rw [serve_linkStats awaits, ownLinkStats, flagAt_of_large (show 1 < u8At [x] 0 from large)]; rfl
  · rw [serve_linkStatsClear awaits, ← statsBytes_eq]; rfl

/-! ## Causes (R207 to R210) -/

/-- The place of a cause in the priority order is one less than its code (R208). -/
theorem Cause.inOrder_code (c : Cause) : Cause.inOrder[c.code - 1]? = some c := by cases c <;> rfl

theorem Cause.mem_inOrder (c : Cause) : c ∈ Cause.inOrder := List.mem_of_getElem? (Cause.inOrder_code c)

theorem Cause.inOrder_sorted : Cause.inOrder.Pairwise (fun c d => c.code < d.code) := by decide

theorem Cause.inOrder_nodup : Cause.inOrder.Nodup := by decide

/-! ### The enable mask (R210, R213) -/

theorem mem_of_mem_membersOf {α : Type} {x : α} : ∀ {order : List α} {mask : Nat}, x ∈ membersOf order mask → x ∈ order
  | m :: rest, mask, mem => by
    rw [membersOf] at mem
    split at mem
    · rcases List.mem_cons.mp mem with rfl | later
      · exact List.mem_cons_self
      · exact List.mem_cons_of_mem m (mem_of_mem_membersOf later)
    · exact List.mem_cons_of_mem m (mem_of_mem_membersOf mem)

section
variable {α : Type}

/-- A member is named exactly where the bit of its place is set. -/
theorem getElem_mem_membersOf : ∀ {order : List α} (_ : order.Nodup) (mask i : Nat) (inside : i < order.length),
    order[i] ∈ membersOf order mask ↔ mask / 2 ^ i % 2 = 1
  | m :: rest, nodup, mask, 0, _ => by
    have absent : m ∉ membersOf rest (mask / 2) := fun mem => (List.nodup_cons.mp nodup).1 (mem_of_mem_membersOf mem)
    rw [List.getElem_cons_zero, membersOf, pow_zero, Nat.div_one]
    split
    · next set_ => exact iff_of_true List.mem_cons_self set_
    · next clear => exact iff_of_false absent clear
  | m :: rest, nodup, mask, i + 1, inside => by
    obtain ⟨fresh, nodup⟩ := List.nodup_cons.mp nodup
    have inside : i < rest.length := Nat.lt_of_succ_lt_succ inside
    have other : rest[i] ≠ m := fun same => fresh (same ▸ List.getElem_mem inside)
    have rest_iff : rest[i] ∈ membersOf (m :: rest) mask ↔ rest[i] ∈ membersOf rest (mask / 2) := by
      rw [membersOf]
      split
      · rw [List.mem_cons, or_iff_right other]
      · exact Iff.rfl
    rw [List.getElem_cons_succ, rest_iff, getElem_mem_membersOf nodup _ i inside, pow_succ', Nat.div_div_eq_div_mul]

variable [DecidableEq α]

theorem maskOf_congr {a b : List α} : ∀ {order : List α}, (∀ x ∈ order, x ∈ a ↔ x ∈ b) → maskOf order a = maskOf order b
  | [], _ => rfl
  | m :: rest, same => by
    rw [maskOf, maskOf, maskOf_congr fun x mem => same x (List.mem_cons_of_mem m mem)]
    simp only [same m List.mem_cons_self]

/-- A mask written back is the mask read. -/
theorem maskOf_membersOf : ∀ {order : List α} (_ : order.Nodup) {mask : Nat} (_ : mask < 2 ^ order.length),
    maskOf order (membersOf order mask) = mask
  | [], _, mask, fits => by
    rw [List.length_nil, pow_zero] at fits
    exact (Nat.lt_one_iff.mp fits).symm
  | m :: rest, nodup, mask, fits => by
    obtain ⟨fresh, rest_nodup⟩ := List.nodup_cons.mp nodup
    have later : maskOf rest (membersOf (m :: rest) mask) = mask / 2 := by
      rw [maskOf_congr (b := membersOf rest (mask / 2)) fun x mem => ?_]
      · exact maskOf_membersOf rest_nodup (by rw [List.length_cons, pow_succ] at fits; omega)
      · rw [membersOf]
        split
        · rw [List.mem_cons, or_iff_right fun same : x = m => fresh (same ▸ mem)]
        · exact Iff.rfl
    have first : m ∈ membersOf (m :: rest) mask ↔ mask % 2 = 1 := by
      have := getElem_mem_membersOf nodup mask 0 (Nat.succ_pos _)
      rwa [List.getElem_cons_zero, pow_zero, Nat.div_one] at this
    rw [maskOf, later]
    by_cases bit : mask % 2 = 1
    · rw [if_pos (first.mpr bit)]; omega
    · rw [if_neg (mt first.mp bit)]; omega

end

theorem mem_enableSet (c : Cause) (mask : Nat) : c ∈ membersOf Cause.inOrder mask ↔ mask / 2 ^ (c.code - 1) % 2 = 1 := by
  obtain ⟨inside, here⟩ := List.getElem?_eq_some_iff.mp (Cause.inOrder_code c)
  rw [← getElem_mem_membersOf Cause.inOrder_nodup mask _ inside, here]

theorem u16_bytes (b1 b0 : Byte) : u16 (b1.toNat * 256 + b0.toNat) = [b1, b0] := by
  have high : (b1.toNat * 256 + b0.toNat) / 256 = b1.toNat := by have := b0.isLt; omega
  have low : BitVec.ofNat 8 (b1.toNat * 256 + b0.toNat) = b0 := BitVec.eq_of_toNat_eq (by
    rw [toNat_byte]; have := b0.isLt; omega)
  rw [u16, high, low, BitVec.ofNat_toNat, BitVec.setWidth_eq]

/-! ### The pending set and the attention line (R207 to R209) -/

theorem anyEnabled_iff (a : Attention) : a.anyEnabled = true ↔ ∃ x ∈ a.pending, x.cause ∈ a.enabled := by
  simp [Attention.anyEnabled]

theorem releaseIfNone_eq (a : Attention) : a.releaseIfNone =
    { a with hold := if ∃ x ∈ a.pending, x.cause ∈ a.enabled then a.hold else none } := by
  simp only [Attention.releaseIfNone, anyEnabled_iff]

section
variable {a : Attention} {q : PendingCause} {rest : List PendingCause}

/-- The highest pending cause of an ordered set is its first. -/
theorem highest_of_ordered (pending : a.pending = q :: rest) (ordered : a.ordered) : a.highest = some q := by
  have later : ∀ x ∈ rest, q.cause.code < x.cause.code := by
    rw [Attention.ordered, pending] at ordered
    exact (List.pairwise_cons.mp ordered).1
  obtain ⟨before, after, split⟩ := List.append_of_mem (Cause.mem_inOrder q.cause)
  rw [Attention.highest, pending, split]
  refine List.findSome?_eq_some_iff.mpr ⟨before, q.cause, after, rfl, by simp, fun c mem => ?_⟩
  have sorted := Cause.inOrder_sorted
  rw [split] at sorted
  have above : c.code < q.cause.code := (List.pairwise_append.mp sorted).2.2 c mem q.cause List.mem_cons_self
  refine List.find?_eq_none.mpr fun x pending same => ?_
  have named : x.cause = c := by simpa using same
  rcases List.mem_cons.mp pending with rfl | mem
  · rw [named] at above; omega
  · have := later x mem; rw [named] at this; omega

theorem highest_of_empty (pending : a.pending = []) : a.highest = none := by
  rw [Attention.highest, pending]
  exact List.findSome?_eq_none_iff.mpr fun _ _ => rfl

theorem without_of_ordered (pending : a.pending = q :: rest) (later : ∀ x ∈ rest, q.cause.code < x.cause.code) :
    a.without q.cause = { a with
      pending := rest, hold := if ∃ x ∈ rest, x.cause ∈ a.enabled then a.hold else none } := by
  have left : a.pending.filter (fun x => x.cause != q.cause) = rest := by
    rw [pending, List.filter_cons_of_neg (by simp), List.filter_eq_self]
    intro x mem
    have := later x mem
    refine bne_iff_ne.mpr fun same => ?_
    rw [same] at this
    omega
  rw [Attention.without, left, releaseIfNone_eq]

end

section
variable {l : Link} {s : State}

theorem serve_causeTake (awaits : s.awaits ⟨l, Kind.causeTake.code, [], none⟩) :
    exec (.causeTake l []) s = .next (answer l 0x1B (ownCauseTake l s).1 (ownCauseTake l s).2) :=
  next_serve_of_awaits _ awaits (by cases l <;> rfl) rfl

theorem serve_causeEnable {b1 b0 : Byte} (awaits : s.awaits ⟨l, Kind.causeEnable.code, [b1, b0], none⟩) :
    exec (.causeEnable l [b1, b0]) s =
      .next (answer l 0x1C (ownCauseEnable l [b1, b0] s).1 (ownCauseEnable l [b1, b0] s).2) :=
  next_serve_of_awaits _ awaits (by cases l <;> rfl) rfl

theorem ownCauseTake_of_empty (pending : (s.att l).pending = []) :
    ownCauseTake l s = (.ok [0, 0, 0, 0, 0, 0, 0], s) := by
  rw [ownCauseTake, highest_of_empty pending]; rfl

theorem ownCauseTake_of_first {q : PendingCause} {rest : List PendingCause} (pending : (s.att l).pending = q :: rest)
    (ordered : (s.att l).ordered) (later : ∀ x ∈ rest, q.cause.code < x.cause.code) :
    ownCauseTake l s = (.ok (u8 q.cause.code ++ s32 q.detail ++ [if q.cause ∈ (s.att l).enabled then 1 else 0] ++ u8 rest.length),
      s.setAtt l { s.att l with
        pending := rest
        hold := if ∃ x ∈ rest, x.cause ∈ (s.att l).enabled then (s.att l).hold else none }) := by
  have flag : flagByte (decide (q.cause ∈ (s.att l).enabled)) = [if q.cause ∈ (s.att l).enabled then 1 else 0] := by
    rw [flagByte_eq]
    by_cases on : q.cause ∈ (s.att l).enabled <;> simp [on]
  rw [ownCauseTake, highest_of_ordered pending ordered]
  dsimp only
  rw [without_of_ordered pending later, flag]
  rfl

theorem ownCauseEnable_of_range {b1 b0 : Byte} (large : 32 ≤ b1.toNat) : ownCauseEnable l [b1, b0] s = refuse .range s :=
  if_pos (show 2 ^ 13 ≤ b1.toNat * 256 + b0.toNat by omega)

theorem ownCauseEnable_of_mask {b1 b0 : Byte} (small : b1.toNat < 32) :
    let named := membersOf Cause.inOrder (b1.toNat * 256 + b0.toNat)
    ownCauseEnable l [b1, b0] s = (.ok ([b1, b0] ++ u8 (s.att l).pending.length), s.setAtt l { s.att l with
      enabled := named
      hold := if ∃ x ∈ (s.att l).pending, x.cause ∈ named then (s.att l).hold else none }) := by
  have fits : b1.toNat * 256 + b0.toNat < 2 ^ 13 := by have := b0.isLt; omega
  intro named
  have written : u16 (maskOf Cause.inOrder named) = [b1, b0] := by
    rw [show maskOf Cause.inOrder named = _ from maskOf_membersOf Cause.inOrder_nodup fits, u16_bytes]
  have read : u16At [b1, b0] 0 = b1.toNat * 256 + b0.toNat := rfl
  rw [ownCauseEnable, read, if_neg (not_le.mpr fits), releaseIfNone_eq]
  exact Prod.ext (congrArg (fun bytes => Reply.ok (bytes ++ u8 (s.att l).pending.length)) written) rfl

end

/-- Settles O59: a take by the empty or ordered set, an enable by its mask, and both by what remains enabled. -/
theorem causeRequests : Obligations.CauseRequests := by
  refine ⟨rfl, fun a now c d ordered => ?_, fun l k c d s => ⟨raiseAll_att c d s k, ?_⟩,
    fun l s => ⟨fun awaits => ⟨fun pending => ?_, fun q rest pending ordered => ?_⟩,
      fun b1 b0 awaits => ⟨fun large => ?_, fun small => ?_⟩⟩⟩
  · obtain ⟨sorted, members⟩ := putCause_of_ordered c d a.pending ordered
    exact ⟨members, sorted, rfl, rfl⟩
  · split
    · next own => rw [own]; exact raiseOn_att_same l c d s
    · next other => exact raiseOn_att_other c d s other
  · rw [serve_causeTake awaits, ownCauseTake_of_empty pending]
  · have later : ∀ x ∈ rest, q.cause.code < x.cause.code := by
      rw [Attention.ordered, pending] at ordered
      exact (List.pairwise_cons.mp ordered).1
    exact ⟨later, by rw [serve_causeTake awaits, ownCauseTake_of_first pending ordered later]⟩
  · rw [serve_causeEnable awaits, ownCauseEnable_of_range large]; rfl
  · exact ⟨_, fun c => mem_enableSet c _, by rw [serve_causeEnable awaits, ownCauseEnable_of_mask small]⟩

end Sys2Proof.Machine

/-! The settings records and their loads (O52 to O54). -/

namespace Sys2Proof.Machine

/-! ## The records read back (R148, section 12.3) -/

section
variable {p : List Byte} {i : Nat}

theorem u8At_lt (p : List Byte) (i : Nat) : u8At p i < 256 := (p.getD i 0).isLt

theorem u16At_lt (p : List Byte) (i : Nat) : u16At p i < 65536 := by
  have := u8At_lt p i
  have := u8At_lt p (i + 1)
  unfold u16At
  omega

theorem u8_u8At (p : List Byte) (i : Nat) : u8 (u8At p i) = [p.getD i 0] := u8_toNat _

theorem u16_u16At (p : List Byte) (i : Nat) : u16 (u16At p i) = [p.getD i 0, p.getD (i + 1) 0] := u16_bytes ..

theorem u24_u24At (p : List Byte) (i : Nat) : u24 (u24At p i) = [p.getD i 0, p.getD (i + 1) 0, p.getD (i + 2) 0] := by
  have last := u8At_lt p (i + 2)
  have high : u24At p i / 65536 = u16At p i / 256 := by unfold u24At; omega
  have middle : u24At p i / 256 = u16At p i := by unfold u24At; omega
  have low : BitVec.ofNat 8 (u24At p i) = p.getD (i + 2) 0 := BitVec.eq_of_toNat_eq (by
    rw [toNat_byte]
    unfold u24At u8At
    omega)
  have front := u16_u16At p i
  rw [u16, List.cons.injEq, List.cons.injEq] at front
  obtain ⟨first, second, -⟩ := front
  rw [u24, high, middle, low, first, second]

/-- A field as it is read, before the rest of the payload, is the payload from its place on. -/
theorem u8_append_drop (inside : i < p.length) : u8 (u8At p i) ++ p.drop (i + 1) = p.drop i := by
  rw [u8_u8At, List.drop_eq_getElem_cons inside, List.getD_eq_getElem _ _ inside, List.singleton_append]

theorem u16_append_drop (inside : i + 1 < p.length) : u16 (u16At p i) ++ p.drop (i + 2) = p.drop i := by
  rw [u16_u16At, List.drop_eq_getElem_cons (i := i) (by omega), List.drop_eq_getElem_cons (i := i + 1) inside,
    List.getD_eq_getElem _ _ inside, List.getD_eq_getElem _ _ (by omega)]
  rfl

theorem u24_append_drop (inside : i + 2 < p.length) : u24 (u24At p i) ++ p.drop (i + 3) = p.drop i := by
  rw [u24_u24At, List.drop_eq_getElem_cons (i := i) (by omega), List.drop_eq_getElem_cons (i := i + 1) (by omega),
    List.drop_eq_getElem_cons (i := i + 2) inside, List.getD_eq_getElem _ _ inside, List.getD_eq_getElem _ _ (by omega),
    List.getD_eq_getElem _ _ (by omega)]
  rfl

theorem layoutBytes_layoutOf (length : p.length = 17) : layoutBytes (layoutOf p) = p :=
  calc layoutBytes (layoutOf p)
    _ = layoutBytes (layoutOf p) ++ p.drop 17 := by rw [List.drop_of_length_le length.le, List.append_nil]
    _ = p.drop 0 := by
      simp only [layoutBytes, layoutOf, List.append_assoc]
      rw [u8_append_drop (i := 16) (by omega), u8_append_drop (i := 15) (by omega), u8_append_drop (i := 14) (by omega),
        u16_append_drop (i := 12) (by omega), u16_append_drop (i := 10) (by omega), u16_append_drop (i := 8) (by omega),
        u16_append_drop (i := 6) (by omega), u16_append_drop (i := 4) (by omega), u16_append_drop (i := 2) (by omega),
        u8_append_drop (i := 1) (by omega), u8_append_drop (i := 0) (by omega)]
    _ = p := List.drop_zero

theorem calibrationBytes_calibrationOf (length : p.length = 14) : calibrationBytes (calibrationOf p) = p :=
  calc calibrationBytes (calibrationOf p)
    _ = calibrationBytes (calibrationOf p) ++ p.drop 14 := by rw [List.drop_of_length_le length.le, List.append_nil]
    _ = p.drop 0 := by
      simp only [calibrationBytes, calibrationOf, List.append_assoc]
      rw [u8_append_drop (i := 13) (by omega), u8_append_drop (i := 12) (by omega), u8_append_drop (i := 11) (by omega),
        u8_append_drop (i := 10) (by omega), u16_append_drop (i := 8) (by omega), u8_append_drop (i := 7) (by omega),
        u24_append_drop (i := 4) (by omega), u24_append_drop (i := 1) (by omega), u8_append_drop (i := 0) (by omega)]
    _ = p := List.drop_zero

/-- A valid flag byte is the flag it gives, written. -/
theorem flagByte_flagAt (valid : (flagAt p i).isSome = true) : flagByte (flagAt p i == some true) = u8 (u8At p i) := by
  unfold flagAt at *
  split at valid
  · next zero => rw [if_pos zero, zero]; rfl
  · next other =>
    split at valid
    · next one => rw [if_neg other, if_pos one, one]; rfl
    · cases valid

/-- The pattern of a recipe payload, written with its length, is the payload from its length byte on. -/
theorem pattern_written (length : p.length = 33 + u8At p 32) :
    u8 ((recipeOfPayload p).codePattern.getD []).length ++ (recipeOfPayload p).codePattern.getD [] = p.drop 32 := by
  have text : (recipeOfPayload p).codePattern.getD [] = p.drop 33 := by
    unfold recipeOfPayload
    dsimp only
    split
    · next empty => rw [List.drop_of_length_le (by omega)]; rfl
    · exact List.take_of_length_le (by rw [List.length_drop]; omega)
  have count : (p.drop 33).length = u8At p 32 := by rw [List.length_drop]; omega
  rw [text, count, u8_append_drop (by omega)]

/-- The bytes of a recipe before and after its keep-trims flag (section 12.3). -/
theorem recipeBytes_split (r : Recipe) :
    ∃ front back, front.length = 31 ∧ ∀ keep, recipeBytes r keep = front ++ (flagByte keep ++ back) :=
  ⟨u24 r.targetNet ++ u16 r.tolUnder ++ u16 r.tolOver ++ u16 r.tareNominal ++ u16 r.nominalDose ++ u16 r.doseMin ++
    u16 r.doseMax ++ u8 r.gain ++ u8 r.shift ++ u16 r.trimLimit ++ u16 r.deadBand ++ u8 r.limitAlarm ++ u8 r.ootAlarm ++
    u16 r.lineLimit ++ u8 r.centerThreshold ++ u8 r.centerEvery ++ u8 r.probationCount ++ u16 r.alertBand ++
    flagByte r.codeRequired, u8 (r.codePattern.getD []).length ++ r.codePattern.getD [],
    by simp only [List.length_append, length_u8, length_u16, length_u24, length_flagByte],
    fun keep => by unfold recipeBytes; simp only [List.append_assoc]⟩

theorem recipeBytes_recipeOfPayload (length : p.length = 33 + u8At p 32) (flags : recipeFlagsValid p = true) :
    recipeBytes (recipeOfPayload p) (keepTrimsOf p) = p := by
  obtain ⟨required, keep⟩ := Bool.and_eq_true_iff.mp flags
  have fields : recipeBytes (recipeOfPayload p) (keepTrimsOf p) = p.drop 0 := by
    have text := pattern_written length
    have requiredFlag : flagByte (recipeOfPayload p).codeRequired = u8 (u8At p 30) := flagByte_flagAt required
    have keepFlag := flagByte_flagAt keep
    unfold recipeBytes
    simp only [List.append_assoc]
    rw [text, keepTrimsOf, keepFlag, requiredFlag]
    simp only [recipeOfPayload]
    rw [u8_append_drop (i := 31) (by omega), u8_append_drop (i := 30) (by omega), u16_append_drop (i := 28) (by omega),
      u8_append_drop (i := 27) (by omega), u8_append_drop (i := 26) (by omega), u8_append_drop (i := 25) (by omega),
      u16_append_drop (i := 23) (by omega), u8_append_drop (i := 22) (by omega), u8_append_drop (i := 21) (by omega),
      u16_append_drop (i := 19) (by omega), u16_append_drop (i := 17) (by omega), u8_append_drop (i := 16) (by omega),
      u8_append_drop (i := 15) (by omega), u16_append_drop (i := 13) (by omega), u16_append_drop (i := 11) (by omega),
      u16_append_drop (i := 9) (by omega), u16_append_drop (i := 7) (by omega), u16_append_drop (i := 5) (by omega),
      u16_append_drop (i := 3) (by omega), u24_append_drop (i := 0) (by omega)]
  rw [fields, List.drop_zero]

/-- Settles O52: each field read from the bytes, and written before the rest of them, gives the payload from its place on. -/
theorem recordsReadBackAsLoaded : Obligations.RecordsReadBackAsLoaded := by
  refine ⟨fun p => layoutBytes_layoutOf, fun p => calibrationBytes_calibrationOf, fun p length flags => ?_⟩
  have whole := recipeBytes_recipeOfPayload ((lengthOk_recipeLoad_iff p).mp length).2 flags
  refine ⟨whole, ?_⟩
  obtain ⟨front, back, size, bytes⟩ := recipeBytes_split (recipeOfPayload p)
  calc recipeBytes (recipeOfPayload p) false
    _ = front ++ (flagByte (keepTrimsOf p) ++ back).set 0 0 := bytes false
    _ = (front ++ (flagByte (keepTrimsOf p) ++ back)).set 31 0 := by rw [List.set_append_right 31 0 size.le, size]
    _ = p.set 31 0 := by rw [← bytes, whole]

end

end Sys2Proof.Machine

/-! LAYOUT LOAD and CAL LOAD: their refusals, and what they install (O53, O54). -/

namespace Sys2Proof.Machine

/-- What a settings load gives where its owner answers (R147). -/
theorem serve_layoutLoad {s : State} {p : List Byte} (length : p.length = 17)
    (awaits : s.awaits ⟨.supervisor, Kind.layoutLoad.code, p, none⟩) :
    exec (.layoutLoad .supervisor p) s = .next (answer .supervisor 0x08 (ownLayoutLoad p s).1 (ownLayoutLoad p s).2) :=
  next_serve_of_awaits _ awaits rfl (beq_iff_eq.mpr length)

theorem serve_calLoad {s : State} {p : List Byte} (length : p.length = 14)
    (awaits : s.awaits ⟨.supervisor, Kind.calLoad.code, p, none⟩) :
    exec (.calLoad .supervisor p) s = .next (answer .supervisor 0x09 (ownCalLoad p s).1 (ownCalLoad p s).2) :=
  next_serve_of_awaits _ awaits rfl (beq_iff_eq.mpr length)

theorem loadState_iff (op : OpState) : loadState op = true ↔ op = .config ∨ op = .ready := by cases op <;> decide

/-- The passage to READY, for a load that was taken (R170). -/
theorem passToReady_of_loads {s : State} (loads : s.control.state = .config ∨ s.control.state = .ready) {complete : Prop}
    [Decidable complete] (iff : s.store.complete = true ↔ complete) : passToReady s =
      { s with control := { s.control with state := if complete then .ready else s.control.state } } := by
  unfold passToReady
  by_cases whole : complete
  · rcases loads with config | ready
    · rw [if_pos ⟨config, iff.mpr whole⟩, if_pos whole]
    · rw [if_neg (by rw [ready]; exact nofun), if_pos whole, ← ready]
  · rw [if_neg (fun both => whole (iff.mp both.2)), if_neg whole]

/-! ## LAYOUT LOAD (R149, R150) -/

theorem layoutValid_iff (p : List Byte) :
    let r := layoutOf p
    layoutValid r = true ↔ 1 ≤ r.valveCount ∧ r.valveCount ≤ 64 ∧
      (r.divider = 1 ∨ r.divider = 2 ∨ r.divider = 4 ∨ r.divider = 8) ∧ 1 ≤ r.platformDistance ∧ 1 ≤ r.platformWindow ∧
      r.platformWindow ≤ 4095 ∧ 1 ≤ r.readerDistance ∧ 1 ≤ r.readerWindow ∧ r.readerWindow ≤ 4095 ∧
      1 ≤ r.rejectDistance ∧ 1 ≤ r.maxDwell ∧ 1 ≤ r.slipAlarm ∧ r.slipAlarm ≤ 16 ∧ 5 ≤ r.gatePulse ∧ r.gatePulse ≤ 200 ∧
      1 ≤ r.confirmTime ∧ r.confirmTime ≤ 100 ∧
      (r.platformDistance : Int) + r.platformWindow ≤ (r.readerDistance : Int) - r.readerWindow ∧
      r.readerDistance + r.readerWindow < r.rejectDistance := by
  intro r
  have h1 : r.platformDistance < 65536 := u16At_lt p 2
  have h2 : r.readerDistance < 65536 := u16At_lt p 6
  have h3 : r.rejectDistance < 65536 := u16At_lt p 10
  have h4 : r.maxDwell < 65536 := u16At_lt p 12
  simp only [layoutValid, Bool.and_eq_true, decide_eq_true_eq, List.mem_cons, List.not_mem_nil, or_false]
  constructor
  · rintro ⟨⟨⟨⟨⟨⟨⟨⟨⟨⟨⟨⟨_, _⟩, _⟩, _⟩, _⟩, _⟩, _⟩, _⟩, _⟩, _⟩, _⟩, _⟩, _⟩
    omega
  · intro valid
    omega

theorem getD_resizeTable {old new : Nat} {vs : List Valve} {v : Nat} (first : 1 ≤ v) (inside : v ≤ vs.length) :
    (resizeTable old new vs).getD (v - 1) Valve.reset =
      if old < v ∧ v ≤ new then freshValve else if new < v ∧ v ≤ old then Valve.reset else vs.getD (v - 1) Valve.reset := by
  rw [List.getD_eq_getElem?_getD, getElem?_resizeTable, List.getD_eq_getElem?_getD, List.getElem?_eq_getElem (by omega)]
  have into : old ≤ v - 1 ∧ v - 1 < new ↔ old < v ∧ v ≤ new := by omega
  have out : new ≤ v - 1 ∧ v - 1 < old ↔ new < v ∧ v ≤ old := by omega
  simp only [into, out, Option.map_some, Option.getD_some]

section
variable {p : List Byte} {s : State}

theorem ownLayoutLoad_of_state (taken : ¬loadState s.control.state = true) : ownLayoutLoad p s = refuse .state s := by
  simp [ownLayoutLoad, taken]

theorem ownLayoutLoad_of_range (taken : loadState s.control.state = true) (invalid : ¬layoutValid (layoutOf p) = true) :
    ownLayoutLoad p s = refuse .range s := by
  simp [ownLayoutLoad, taken, invalid]

theorem ownLayoutLoad_of_frozen (taken : loadState s.control.state = true) (valid : layoutValid (layoutOf p) = true)
    (other : (layoutOf p).valveCount ≠ s.valveCount) (frozen : s.frozen = true) : ownLayoutLoad p s = refuse .state s := by
  simp [ownLayoutLoad, taken, valid, other, frozen]

theorem ownLayoutLoad_of_valid (taken : loadState s.control.state = true) (valid : layoutValid (layoutOf p) = true)
    (free : (layoutOf p).valveCount = s.valveCount ∨ s.frozen = false) :
    ownLayoutLoad p s = (.ok [p.getD 0 0], installLayout (layoutOf p) s) := by
  have count : u8 (layoutOf p).valveCount = [p.getD 0 0] := u8_u8At p 0
  have allowed : ¬((layoutOf p).valveCount ≠ s.valveCount ∧ s.frozen = true) := by
    rintro ⟨other, frozen⟩
    rcases free with same | free
    · exact other same
    · rw [free] at frozen; cases frozen
  rw [ownLayoutLoad, taken, valid, count, if_neg (by decide), if_neg (by decide), if_neg allowed]
  rfl

theorem installLayout_of_loads (r : Layout) (loads : s.control.state = .config ∨ s.control.state = .ready) :
    installLayout r s = { s with
      tracking := { s.tracking with residue := 0 }
      dose := { s.dose with valves := resizeTable s.valveCount r.valveCount s.dose.valves }
      store := { s.store with layout := some r }
      control := { s.control with state :=
        if s.store.calibration ≠ none ∧ s.store.current ≠ none then .ready else s.control.state } } :=
  passToReady_of_loads (complete := s.store.calibration ≠ none ∧ s.store.current ≠ none)
    (s := { s with
      tracking := { s.tracking with residue := 0 }
      dose := { s.dose with valves := resizeTable s.valveCount r.valveCount s.dose.valves }
      store := { s.store with layout := some r } })
    loads (by simp [Store.complete, Option.isSome_iff_ne_none])

/-- Settles O53: the checks in their order, and then the table entry by entry. -/
theorem layoutLoadInstalls : Obligations.LayoutLoadInstalls := by
  intro p s length awaits
  refine ⟨fun other => ?_, fun loads invalid => ?_, fun loads valid other frozen => ?_, fun loads valid whole free => ?_⟩
  · rw [serve_layoutLoad length awaits, ownLayoutLoad_of_state (mt (loadState_iff _).mp other)]; rfl
  · rw [serve_layoutLoad length awaits, ownLayoutLoad_of_range ((loadState_iff _).mpr loads) (mt (layoutValid_iff p).mp invalid)]
    rfl
  · rw [serve_layoutLoad length awaits,
      ownLayoutLoad_of_frozen ((loadState_iff _).mpr loads) ((layoutValid_iff p).mpr valid) other frozen]
    rfl
  · obtain ⟨size, -⟩ := whole
    refine ⟨resizeTable s.valveCount (layoutOf p).valveCount s.dose.valves, ?_, (length_resizeTable ..).trans size,
      fun v first last => getD_resizeTable first (size ▸ last)⟩
    rw [serve_layoutLoad length awaits,
      ownLayoutLoad_of_valid ((loadState_iff _).mpr loads) ((layoutValid_iff p).mpr valid) free, installLayout_of_loads _ loads]

end

/-! ## CAL LOAD (R36, R60, R151, R152) -/

theorem calibrationValid_iff (p : List Byte) :
    let r := calibrationOf p
    calibrationValid r = true ↔ (r.periodSetting = 16 ∨ r.periodSetting = 32 ∨ r.periodSetting = 64) ∧ 1 ≤ r.span ∧
      200000 ≤ r.zeroFigure ∧ r.zeroFigure ≤ 600000 ∧ 2 ≤ r.zeroRate ∧ r.zeroRate ≤ 8 ∧ 1 ≤ r.zeroBand ∧
      r.zeroBand ≤ 20000 ∧ r.settleSkip ≤ 15 ∧ r.tailDrop ≤ 3 ∧ 1 ≤ r.minCount ∧ r.minCount ≤ 8 ∧ r.zeroSettle ≤ 15 := by
  intro r
  have span : r.span ≤ 16777215 := by
    have := u16At_lt p 1
    have := u8At_lt p 3
    show u16At p 1 * 256 + u8At p 3 ≤ 16777215
    omega
  simp only [calibrationValid, Bool.and_eq_true, decide_eq_true_eq, List.mem_cons, List.not_mem_nil, or_false]
  constructor
  · rintro ⟨⟨⟨⟨⟨⟨⟨⟨_, _⟩, _⟩, _⟩, _⟩, _⟩, _⟩, _⟩, _⟩
    omega
  · intro valid
    omega

theorem platformAfterLoad_eq (eye : Bool) (w : Platform) : platformAfterLoad eye w =
    if w = .idle then (if eye = true then .waitClear else .empty) else w := by cases w <;> rfl

theorem abortCapture_of_none (cause : AbortCause) {s : State} (none_ : s.weigh.capture.outcome ≠ .inProgress) :
    abortCapture cause s = s := if_neg (by simpa [Capture.inProgress] using none_)

theorem abortCapture_of_capture (cause : AbortCause) {s : State} (runs : s.weigh.capture.outcome = .inProgress) :
    abortCapture cause s = raiseOn .supervisor .calDone 4 { s with
      weigh := { s.weigh with capture := { s.weigh.capture with outcome := .calAborted, abortCause := some cause } } } :=
  if_pos (by simp [Capture.inProgress, runs])

section
variable {p : List Byte} {s : State}

theorem ownCalLoad_of_state (taken : ¬loadState s.control.state = true) : ownCalLoad p s = refuse .state s := by
  simp [ownCalLoad, taken]

theorem ownCalLoad_of_range (taken : loadState s.control.state = true) (invalid : ¬calibrationValid (calibrationOf p) = true) :
    ownCalLoad p s = refuse .range s := by
  simp [ownCalLoad, taken, invalid]

theorem ownCalLoad_of_valid (taken : loadState s.control.state = true) (valid : calibrationValid (calibrationOf p) = true) :
    ownCalLoad p s = (.ok [], installCalibration (calibrationOf p) s) := by
  simp [ownCalLoad, taken, valid, Reply.ok]

/-- What an accepted calibration record leaves, after the abort of a capture (R36, R152). -/
theorem passToReady_calibration (r : Calibration) (loads : s.control.state = .config ∨ s.control.state = .ready) :
    passToReady { s with weigh := weighLoad r s.pins.eye s.weigh, store := { s.store with calibration := some r } } = { s with
      weigh := { s.weigh with
        fz := some r.zeroFigure, span := some r.span, zeroState := .normal, zeroRun := 0, settleCount := 0,
        conversion := .waiting, period := 0,
        platform := if s.weigh.platform = .idle then (if s.pins.eye = true then .waitClear else .empty)
          else s.weigh.platform }
      store := { s.store with calibration := some r }
      control := { s.control with state :=
        if s.store.layout ≠ none ∧ s.store.current ≠ none then .ready else s.control.state } } := by
  rw [← platformAfterLoad_eq]
  exact passToReady_of_loads (complete := s.store.layout ≠ none ∧ s.store.current ≠ none)
    (s := { s with weigh := weighLoad r s.pins.eye s.weigh, store := { s.store with calibration := some r } })
    loads (by simp [Store.complete, Option.isSome_iff_ne_none])

/-- Settles O54: the checks in their order, and then the installation after the abort of a capture. -/
theorem calLoadInstalls : Obligations.CalLoadInstalls := by
  intro p s length awaits
  refine ⟨fun other => ?_, fun loads invalid => ?_, fun loads valid none_ => ?_, fun loads valid runs => ?_⟩
  · rw [serve_calLoad length awaits, ownCalLoad_of_state (mt (loadState_iff _).mp other)]; rfl
  · rw [serve_calLoad length awaits, ownCalLoad_of_range ((loadState_iff _).mpr loads) (mt (calibrationValid_iff p).mp invalid)]
    rfl
  · rw [serve_calLoad length awaits, ownCalLoad_of_valid ((loadState_iff _).mpr loads) ((calibrationValid_iff p).mpr valid),
      installCalibration, abortCapture_of_none _ none_]
    exact congrArg (fun t => Host.Outcome.next (answer .supervisor 0x09 (.ok []) t)) (passToReady_calibration _ loads)
  · rw [serve_calLoad length awaits, ownCalLoad_of_valid ((loadState_iff _).mpr loads) ((calibrationValid_iff p).mpr valid),
      installCalibration, abortCapture_of_capture _ runs]
    exact congrArg (fun t => Host.Outcome.next (answer .supervisor 0x09 (.ok []) t)) (passToReady_calibration _ loads)

end

end Sys2Proof.Machine

/-! The flush of the queue, and RESTART (O32, O57). -/

namespace Sys2Proof.Machine

/-! ## What a flush leaves (R31, R53, R93, R94, R96, R158, R162) -/

section
variable {s : State}

theorem departed_nextGeneration (g : Generation) (s : State) :
    (departed g s).store.nextGeneration = s.store.nextGeneration := by
  rcases departed_cases g s with ⟨_, _, _, _, e⟩ | ⟨_, _, _, _, e⟩ | ⟨_, e⟩
  · rw [e]; rfl
  · rw [e]
  · rw [e]

/-- A flush keeps the settings records; the counts of the generations are what it changes in the store. -/
theorem flushRecords_settings (q : List CanRecord) (s : State) :
    (flushRecords q s).store.layout = s.store.layout ∧ (flushRecords q s).store.calibration = s.store.calibration ∧
      (flushRecords q s).recipe = s.recipe ∧ (flushRecords q s).store.nextGeneration = s.store.nextGeneration := by
  induction q generalizing s with
  | nil => exact ⟨rfl, rfl, rfl, rfl⟩
  | cons c rest ih =>
    have same := (appendSummary_att (k := .filler) (summaryOf c .flushed false) s nofun).2
    obtain ⟨layout, calibration, recipe, next⟩ := ih (departed c.generation (appendSummary (summaryOf c .flushed false) s))
    obtain ⟨layout', calibration'⟩ := departed_records c.generation (appendSummary (summaryOf c .flushed false) s)
    rw [layout', same] at layout
    rw [calibration', same] at calibration
    rw [departed_recipe, show (appendSummary (summaryOf c .flushed false) s).recipe = s.recipe from
      congrArg (fun st : Store => st.current.map HeldRecipe.recipe) same] at recipe
    rw [departed_nextGeneration, same] at next
    exact ⟨layout, calibration, recipe, next⟩

theorem discardWeighing_of_dwell {w : Weighing} (dwell : s.weigh.platform = .dwell w) :
    discardWeighing s = { s with weigh := { s.weigh with platform := .waitClear } } := by
  rw [discardWeighing, dwell]; rfl

theorem discardWeighing_of_other (other : ∀ w, s.weigh.platform ≠ .dwell w) : discardWeighing s = s := by
  unfold discardWeighing
  split
  · next w dwell => exact absurd dwell (other w)
  · rfl

/-- A flush of the queue, field by field. -/
structure Flushed (s t : State) : Prop where
  frame : t = { s with
    attention := t.attention, canList := t.canList, store := t.store, tracking := { s.tracking with queue := [] }, weigh := t.weigh }
  list : s.canList.ring.length ≤ 256 → s.canList.unread ≤ s.canList.ring.length → t.flushedList s
  retired : s.generationsAgree → t.att .supervisor = s.attRetired
  store : s.generationsAgree → t.store = { s.store with
    previous := none, current := s.store.current.map (fun h => { h with count := 0 }) }
  settings : t.store.layout = s.store.layout ∧ t.store.calibration = s.store.calibration ∧ t.recipe = s.recipe ∧
    t.store.nextGeneration = s.store.nextGeneration
  dwell : (∃ w, s.weigh.platform = .dwell w) → t.weigh = { s.weigh with platform := .waitClear }
  still : (∀ w, s.weigh.platform ≠ .dwell w) → t.weigh = s.weigh

/-- A flush changes no more of the weigh unit than its platform state. -/
theorem Flushed.weigh {t : State} (h : Flushed s t) : t.weigh = { s.weigh with platform := t.weigh.platform } := by
  by_cases dwells : ∃ w, s.weigh.platform = .dwell w
  · rw [h.dwell dwells]
  · rw [h.still (not_exists.mp dwells)]

theorem flushQueue_flushed (s : State) : Flushed s (flushQueue s) := by
  obtain ⟨a, l, st, records⟩ := flushRecords_frame s.tracking.queue (s.setQueue [])
  obtain ⟨w, discard⟩ := discardWeighing_frame (flushRecords s.tracking.queue (s.setQueue []))
  have weigh : (flushRecords s.tracking.queue (s.setQueue [])).weigh = s.weigh := by rw [records]; rfl
  have list := flushRecords_flushedList s.tracking.queue (s.setQueue [])
  have store := flushRecords_store s.tracking.queue (s.setQueue [])
  have settings := flushRecords_settings s.tracking.queue (s.setQueue [])
  have whole : flushQueue s = { flushRecords s.tracking.queue (s.setQueue []) with weigh := w } := discard
  exact {
    frame := by rw [whole, records]; rfl
    list := fun ring unread => by rw [whole]; exact list ring unread
    retired := fun agree => by rw [whole]; exact (store agree).2
    store := fun agree => by rw [whole]; exact (store agree).1
    settings := by rw [whole]; exact settings
    dwell := fun ⟨x, dwell⟩ => by
      rw [flushQueue, discardWeighing_of_dwell ((congrArg WeighUnit.platform weigh).trans dwell), weigh]
    still := fun other => by
      rw [flushQueue, discardWeighing_of_other fun x => by rw [weigh]; exact other x, weigh] }

end

/-! ## FLUSH as a request and as line command 4 (R31, R179) -/

section
variable {s : State}

theorem serve_flush (awaits : s.awaits ⟨.supervisor, Kind.flush.code, [], none⟩) :
    exec (.flush .supervisor []) s = .next (answer .supervisor 0x0F (ownFlush s).1 (ownFlush s).2) :=
  next_serve_of_awaits _ awaits rfl rfl

/-- A line command that ends is handed to its owner, which takes or ignores it (R178, R179). -/
theorem exec_lineFlush_of_space (released : s.resetHeld = false) (decoder : s.control.decoder = .space 4)
    (long : ms 40 ≤ s.spell) : exec .lineFlush s = .next (handFlush (setDecoder .idle s)) :=
  congrArg Host.Outcome.next ((unlessReset_of_released released).trans (endCommand_of_space handFlush decoder long))

theorem handFlush_of_config (config : s.control.state = .config) : handFlush s = { s with control :=
    { s.control with lastCommand := some { number := 4, taken := false } } } := by
  simp [handFlush, handLine, config, State.setControl]

theorem handFlush_of_other (other : s.control.state ≠ .config) : handFlush s = { flushQueue s with control :=
    { s.control with lastCommand := some { number := 4, taken := true } } } := by
  have same : (flushQueue s).control = s.control := by
    rw [(flushQueue_flushed s).frame]
  simp [handFlush, handLine, other, State.setControl, same]

/-- Settles O32: the flush by its frame and its effect on the can list, as a request and as the line command. -/
theorem flushEmptiesTheQueue : Obligations.FlushEmptiesTheQueue := by
  refine ⟨fun s config => ⟨fun awaits => ?_, fun released decoder long => ?_⟩,
    fun s released other ring unread => ⟨fun awaits => ?_, fun decoder long => ?_⟩⟩
  · rw [serve_flush awaits, ownFlush, if_pos config]; rfl
  · rw [exec_lineFlush_of_space released decoder long, handFlush_of_config (s := setDecoder .idle s) config]; rfl
  · obtain ⟨frame, list, retired, store, -, dwell, still⟩ := flushQueue_flushed s
    refine ⟨flushQueue s, ?_, ⟨by rw [frame], by rw [frame], by rw [frame], list ring unread,
      fun agree => ⟨retired agree, store agree⟩, dwell, still, by rw [frame], by rw [frame], by rw [frame]⟩, by rw [frame]⟩
    have state : (flushQueue s).control = s.control := by rw [frame]
    rw [serve_flush awaits, ownFlush, if_neg other, stateServed, state]; rfl
  · have flushed := flushQueue_flushed (setDecoder .idle s)
    rw [exec_lineFlush_of_space released decoder long, handFlush_of_other (s := setDecoder .idle s) other]
    obtain ⟨frame, list, retired, store, -, dwell, still⟩ := flushed
    exact ⟨_, rfl, ⟨by rw [frame]; rfl, by rw [frame]; rfl, by rw [frame]; rfl, list ring unread,
      fun agree => ⟨retired agree, store agree⟩, dwell, still, by rw [frame]; rfl, by rw [frame]; rfl, by rw [frame]; rfl⟩, rfl⟩

end

/-! ## RESTART (R32, R53, R60, R90, R97, R125, R167, R176) -/

section
variable {s : State}

theorem serve_restart (awaits : s.awaits ⟨.supervisor, Kind.restart.code, [], none⟩) :
    exec (.restart .supervisor []) s =
      .next (answer .supervisor 0x10 (.ok (u8 s.control.state.restarted.code)) (restartLine s)) :=
  next_serve_of_awaits _ awaits rfl rfl

theorem restarted_eq (op : OpState) : op.restarted = if op = .config then .config else .ready := by cases op <;> rfl

/-- Whether a capture was in progress or not, its abort leaves all but the capture record and the supervisor link's causes. -/
structure Aborted (cause : AbortCause) (s t : State) : Prop where
  frame : t = { s with attention := t.attention, weigh := { s.weigh with capture := t.weigh.capture } }
  running : s.weigh.capture.outcome = .inProgress →
    t.weigh.capture = { s.weigh.capture with outcome := .calAborted, abortCause := some cause } ∧
      t.att .supervisor = (s.att .supervisor).raised s.now .calDone 4
  idle : s.weigh.capture.outcome ≠ .inProgress → t.weigh.capture = s.weigh.capture ∧ t.att .supervisor = s.att .supervisor
  others : ∀ l, l ≠ .supervisor → t.att l = s.att l

theorem abortCapture_aborted (cause : AbortCause) (s : State) : Aborted cause s (abortCapture cause s) := by
  by_cases runs : s.weigh.capture.outcome = .inProgress
  · rw [abortCapture_of_capture cause runs]
    exact ⟨rfl, fun _ => ⟨rfl, rfl⟩, fun idle => absurd runs idle, fun l other => raiseOn_att_other _ _ _ other⟩
  · rw [abortCapture_of_none cause runs]
    exact ⟨rfl, fun running => absurd running runs, fun _ => ⟨rfl, rfl⟩, fun _ _ => rfl⟩

/-- RESTART is the flush, the abort of a capture, and the dose unit, the runs and the operating state anew. -/
theorem restartLine_eq (s : State) : restartLine s = { abortCapture .restart (slipZero (flushQueue s)) with
    gate := { s.gate with unconfirmed := 0 }, dose := doseRestart s.dose,
    control := { s.control with state := s.control.state.restarted, lineStop := false } } := by
  have flushFrame := (flushQueue_flushed s).frame
  have abortFrame := (abortCapture_aborted .restart (slipZero (flushQueue s))).frame
  have gate : (abortCapture .restart (slipZero (flushQueue s))).gate = s.gate := by rw [abortFrame, flushFrame]; rfl
  have dose : (abortCapture .restart (slipZero (flushQueue s))).dose = s.dose := by rw [abortFrame, flushFrame]; rfl
  have control : (abortCapture .restart (slipZero (flushQueue s))).control = s.control := by rw [abortFrame, flushFrame]; rfl
  rw [← gate, ← dose]
  show enterState _ _ = _
  rw [enterState]
  show State.setControl _ { (abortCapture .restart (slipZero (flushQueue s))).control with
    state := s.control.state.restarted, lineStop := false } = _
  rw [control]
  rfl

theorem doseRestart_valves (d : DoseUnit) : (doseRestart d).valves = d.valves.map (fun e => { e with
    state := (match e.state with
      | .unused => .unused
      | .blocked h => .blocked h
      | _ => .active)
    accumulator := 0, limitRun := 0, ootRun := 0, netWindow := [], alertArmed := true }) :=
  List.map_congr_left fun e _ => by cases state : e.state <;> simp [ValveState.restarted]

/-- Settles O57: the flush and the abort of a capture, each by what it leaves. -/
theorem restartKeepsSettings : Obligations.RestartKeepsSettings := by
  intro s awaits
  have flushed := flushQueue_flushed s
  have weigh := flushed.weigh
  obtain ⟨flush, list, retired, store, ⟨layout, calibration, recipe, next⟩, dwell, still⟩ := flushed
  obtain ⟨abort, running, idle, others⟩ := abortCapture_aborted .restart (slipZero (flushQueue s))
  have capture : (slipZero (flushQueue s)).weigh.capture = s.weigh.capture := by
    show (flushQueue s).weigh.capture = _
    rw [weigh]
  have moment : (slipZero (flushQueue s)).now = s.now := by rw [flush]; rfl
  refine ⟨restartLine s, by rw [serve_restart awaits, restarted_eq], ?_⟩
  rw [restartLine_eq, restarted_eq]
  generalize abortCapture .restart (slipZero (flushQueue s)) = x at abort running idle others
  rw [capture] at running idle
  rw [moment] at running
  have att : ∀ l, (slipZero (flushQueue s)).att l = (flushQueue s).att l := fun _ => rfl
  have sameStore : x.store = (flushQueue s).store := by rw [abort]; rfl
  have sameList : x.canList = (flushQueue s).canList := by rw [abort]; rfl
  have platform : x.weigh.platform = (flushQueue s).weigh.platform := by rw [abort]; rfl
  have listed : s.canList.ring.length ≤ 256 → s.canList.unread ≤ s.canList.ring.length → x.flushedList s := by
    intro ring unread
    have listed := list ring unread
    unfold State.flushedList at *
    rw [sameList, others .quality nofun, others .filler nofun, att, att]
    exact listed
  refine ⟨rfl, ?_, rfl, listed, rfl, rfl, rfl, doseRestart_valves s.dose, ?_, ?_, ?_, ?_, fun agree => ⟨?_, ?_, ?_⟩,
    fun dwells => platform.trans (by rw [dwell dwells]), fun other => platform.trans (by rw [still other]), ?_, ?_, ?_,
    fun runs => ⟨(running runs).1, ?_⟩, fun rests => (idle rests).1, ?_, ?_, ?_, ?_⟩
  · show x.tracking = _
    rw [abort]
    show { (flushQueue s).tracking with slip := 0 } = _
    rw [flush]
  · exact (congrArg Store.layout sameStore).trans layout
  · exact (congrArg Store.calibration sameStore).trans calibration
  · exact (congrArg (fun st : Store => st.current.map HeldRecipe.recipe) sameStore).trans recipe
  · exact (congrArg Store.nextGeneration sameStore).trans next
  · exact (congrArg Store.previous sameStore).trans (by rw [store agree])
  · exact (congrArg Store.current sameStore).trans (by rw [store agree])
  · show x.att .supervisor = _
    split
    · next runs => rw [(running runs).2, att, retired agree]
    · next rests => rw [(idle rests).2, att, retired agree]
  · show x.weigh.fz = _
    rw [abort]; exact (congrArg WeighUnit.fz weigh :)
  · show x.weigh.span = _
    rw [abort]; exact (congrArg WeighUnit.span weigh :)
  · show x.weigh.zeroState = _
    rw [abort]; exact (congrArg WeighUnit.zeroState weigh :)
  · show _ ∈ (x.att .supervisor).pending
    rw [(running runs).2]
    exact mem_putCause ..
  · show x.code = _
    rw [abort]; exact (congrArg State.code flush :)
  · show x.links = _
    rw [abort]; exact (congrArg State.links flush :)
  · show x.reader = _
    rw [abort]; exact (congrArg State.reader flush :)
  · show x.pins = _
    rw [abort]; exact (congrArg State.pins flush :)

end

end Sys2Proof.Machine

/-! RECIPE LOAD: its refusals, the generations, its flush, and the keep-trims conversion (O55). -/

namespace Sys2Proof.Machine

/-! ## The checks of a recipe payload (R154, R155) -/

section
variable {p : List Byte}

theorem flagAt_isSome_iff (i : Nat) : (flagAt p i).isSome = true ↔ p.getD i 0 = 0 ∨ p.getD i 0 = 1 := by
  have zero : u8At p i = 0 ↔ p.getD i 0 = 0 := ⟨fun h => BitVec.eq_of_toNat_eq h, fun h => congrArg BitVec.toNat h⟩
  have one : u8At p i = 1 ↔ p.getD i 0 = 1 := ⟨fun h => BitVec.eq_of_toNat_eq h, fun h => congrArg BitVec.toNat h⟩
  rw [← zero, ← one, flagAt]
  split
  · next set_ => exact iff_of_true rfl (.inl set_)
  · next other =>
    split
    · next set_ => exact iff_of_true rfl (.inr set_)
    · next neither => exact iff_of_false nofun (not_or.mpr ⟨other, neither⟩)

theorem recipeFlagsValid_iff : recipeFlagsValid p = true ↔
    (p.getD 30 0 = 0 ∨ p.getD 30 0 = 1) ∧ (p.getD 31 0 = 0 ∨ p.getD 31 0 = 1) := by
  rw [recipeFlagsValid, Bool.and_eq_true, flagAt_isSome_iff, flagAt_isSome_iff]

theorem keepTrimsOf_iff : keepTrimsOf p = true ↔ p.getD 31 0 = 1 := by
  have one : u8At p 31 = 1 ↔ p.getD 31 0 = 1 := ⟨fun h => BitVec.eq_of_toNat_eq h, fun h => congrArg BitVec.toNat h⟩
  rw [← one, keepTrimsOf, flagAt]
  split
  · next zero => exact iff_of_false nofun (by omega)
  · split
    · next set_ => exact iff_of_true rfl set_
    · next other => exact iff_of_false nofun other

theorem recipeValid_iff (r : Recipe) : recipeValid r = true ↔
    100 ≤ r.targetNet ∧ r.targetNet ≤ 200000 ∧ r.tolUnder ≤ 20000 ∧ r.tolOver ≤ 20000 ∧ r.tareNominal ≤ 50000 ∧
      1 ≤ r.nominalDose ∧ r.nominalDose ≤ 65535 ∧ 1 ≤ r.doseMin ∧ r.doseMin ≤ 65535 ∧ 1 ≤ r.doseMax ∧ r.doseMax ≤ 65535 ∧
      r.gain ≤ 255 ∧ r.shift ≤ 15 ∧ r.trimLimit ≤ 4095 ∧ r.deadBand ≤ 2000 ∧ 1 ≤ r.limitAlarm ∧ r.limitAlarm ≤ 64 ∧
      1 ≤ r.ootAlarm ∧ r.ootAlarm ≤ 32 ∧ r.lineLimit ≤ 8191 ∧ 1 ≤ r.centerThreshold ∧ r.centerThreshold ≤ 255 ∧
      8 ≤ r.centerEvery ∧ r.centerEvery ≤ 255 ∧ r.probationCount ≤ 16 ∧ r.alertBand ≤ 20000 ∧ r.doseMin ≤ r.doseMax ∧
      (∀ q, r.codePattern = some q → 1 ≤ q.length ∧ q.length ≤ 24 ∧ ∀ x ∈ q, 0x20 ≤ x.toNat ∧ x.toNat ≤ 0x7E) := by
  unfold recipeValid
  generalize r.codePattern = pattern
  cases pattern with
  | none =>
    simp only [Bool.and_eq_true, decide_eq_true_eq, and_assoc, reduceCtorEq, false_imp_iff, implies_true, and_true]
  | some q =>
    simp only [Bool.and_eq_true, decide_eq_true_eq, and_assoc, List.all_eq_true, printable, Option.some.injEq, forall_eq']
    tauto

end

/-! ## What an installation leaves (R124, R157, R160 to R165, R170) -/

/-- The state an installation leaves, with the attention states and the previous recipe that its last step decides (R160). -/
def recipeInstalled (r : Recipe) (keep : Bool) (a : PerLink Attention) (previous : Option HeldRecipe) (u : State) : State :=
  { u with
    attention := a
    store := { u.store with
      previous := previous, nextGeneration := u.store.nextGeneration + 1,
      current := some { recipe := r, generation := u.store.nextGeneration, count := 0 } }
    dose := doseInstall keep u.recipe r u.valveCount u.dose
    control := { u.control with state :=
      if u.control.state = .config ∧ u.store.layout ≠ none ∧ u.store.calibration ≠ none then .ready else u.control.state } }

section
variable {r : Recipe} {keep : Bool} {u : State}

theorem passToReady_eq {s : State} {complete : Prop} [Decidable complete] (iff : s.store.complete = true ↔ complete) :
    passToReady s = { s with control := { s.control with state :=
      if s.control.state = .config ∧ complete then .ready else s.control.state } } := by
  unfold passToReady
  simp only [iff]
  split <;> rfl

theorem installRecipe_eq {a : PerLink Attention} {previous : Option HeldRecipe}
    (retired : retireIfEmpty { u with store := u.store.installed r, dose := doseInstall keep u.recipe r u.valveCount u.dose } =
      { u with
        attention := a, dose := doseInstall keep u.recipe r u.valveCount u.dose
        store := { u.store with
          previous := previous, nextGeneration := u.store.nextGeneration + 1,
          current := some { recipe := r, generation := u.store.nextGeneration, count := 0 } } }) :
    installRecipe r keep u = recipeInstalled r keep a previous u := by
  rw [installRecipe, retired]
  exact passToReady_eq (by simp [Store.complete, Option.isSome_iff_ne_none])

variable (none_held : u.store.previous = none)

/-- An outgoing recipe that records carry becomes the previous one (R160). -/
theorem installRecipe_of_carried {h : HeldRecipe} (current : u.store.current = some h) (carried : 0 < h.count) :
    installRecipe r keep u = recipeInstalled r keep u.attention (some h) u := by
  apply installRecipe_eq
  simp [retireIfEmpty, Store.installed, current, carried.ne']

/-- An outgoing recipe that no record carries is retired at once (R160, R162). -/
theorem installRecipe_of_empty {h : HeldRecipe} (current : u.store.current = some h) (empty : h.count = 0) :
    installRecipe r keep u =
      recipeInstalled r keep (raiseOn .supervisor .recipeRetired h.generation.toNat u).attention none u := by
  apply installRecipe_eq
  simp [retireIfEmpty, Store.installed, current, empty, retirePrevious]
  rfl

include none_held in
theorem installRecipe_of_first (current : u.store.current = none) :
    installRecipe r keep u = recipeInstalled r keep u.attention none u := by
  apply installRecipe_eq
  simp [retireIfEmpty, Store.installed, current, none_held]

end

theorem recipeServed_installed (r : Recipe) (keep : Bool) (a : PerLink Attention) (previous : Option HeldRecipe) (u : State) :
    recipeServed (recipeInstalled r keep a previous u) = (.ok (u.store.nextGeneration :: match previous.map HeldRecipe.generation with
      | some g => [1, g]
      | none => [0, 0]), recipeInstalled r keep a previous u) := by
  have current : (recipeInstalled r keep a previous u).store.currentGeneration = u.store.nextGeneration := rfl
  rw [recipeServed, current, u8_toNat, heldRecipe_presence]
  rfl

/-! ### The valve table (R124, R164, R165) -/

theorem getElem?_mapUsed {n v : Nat} {f : Valve → Valve} {vs : List Valve} (first : 1 ≤ v) (used : v ≤ n) (inside : v ≤ vs.length) :
    (mapUsed n f vs)[v - 1]? = (vs[v - 1]?).map f := by
  rw [mapUsed, List.getElem?_append_left (by rw [List.length_map, List.length_take]; omega), List.getElem?_map,
    List.getElem?_take_of_lt (by omega)]

theorem doseInstall_valve {keep : Bool} {old : Option Recipe} {r : Recipe} {n v : Nat} {d : DoseUnit} (first : 1 ≤ v) (used : v ≤ n)
    (inside : v ≤ d.valves.length) :
    let e := d.valves.getD (v - 1) Valve.reset
    (doseInstall keep old r n d).valves.getD (v - 1) Valve.reset =
      { e with accumulator := convertAccumulator keep old r e.accumulator, netWindow := [], alertArmed := true } := by
  intro e
  have here : d.valves[v - 1]? = some e := by
    rw [List.getElem?_eq_getElem (by omega)]
    exact congrArg some (List.getD_eq_getElem d.valves Valve.reset (by omega)).symm
  rw [List.getD_eq_getElem?_getD, doseInstall, List.getElem?_map, getElem?_mapUsed first used inside, here]
  rfl

theorem convertAccumulator_eq (keep : Bool) (old : Option Recipe) (r : Recipe) (a : Int) :
    convertAccumulator keep old r a = if keep = true then
      max (-((r.trimLimit : Int) * 2 ^ r.shift)) (min ((r.trimLimit : Int) * 2 ^ r.shift)
        ((old.map (fun o => trimOf a o.shift)).getD 0 * 2 ^ r.shift)) else 0 := by
  unfold convertAccumulator keptAccumulator
  rw [limitTo_eq_max_min _ (accLimit_nonneg r)]
  rfl

/-- An installation after a flush or without one: what it leaves of the state `s` that the request found. -/
theorem recipeInstalled_fields {r : Recipe} {keep : Bool} {K : Prop} [Decidable K] (kept : keep = true ↔ K) {a : PerLink Attention}
    {previous : Option HeldRecipe} {s u : State} (whole : s.tableWhole) (before : u = { s with
      attention := u.attention, canList := u.canList, store := u.store, tracking := u.tracking, weigh := u.weigh })
    (settings : u.store.layout = s.store.layout ∧ u.store.calibration = s.store.calibration ∧ u.recipe = s.recipe ∧
      u.store.nextGeneration = s.store.nextGeneration) :
    let t := recipeInstalled r keep a previous u
    let lim : Int := (r.trimLimit : Int) * 2 ^ r.shift
    t.store.layout = s.store.layout ∧ t.store.calibration = s.store.calibration ∧
      t.store.nextGeneration = s.store.nextGeneration + 1 ∧
      (∃ h, t.store.current = some h ∧ h.recipe = r ∧ h.generation = s.store.nextGeneration ∧ h.count = 0) ∧
      t.dose.centering = 0 ∧ t.dose.freeze = s.dose.freeze ∧
      t.dose.lineOffset = (if K then max (-(r.lineLimit : Int)) (min r.lineLimit s.dose.lineOffset) else 0) ∧
      (∀ v, 1 ≤ v → v ≤ s.valveCount → t.valve v = { s.valve v with
        accumulator := (if K then max (-lim) (min lim
            ((s.recipe.map (fun o => trimOf (s.valve v).accumulator o.shift)).getD 0 * 2 ^ r.shift)) else 0)
        netWindow := [], alertArmed := true }) ∧
      t.control = { s.control with state :=
        if s.control.state = .config ∧ s.store.layout ≠ none ∧ s.store.calibration ≠ none then .ready
        else s.control.state } ∧
      t.gate = s.gate ∧ t.code = s.code ∧ t.links = s.links := by
  intro t lim
  obtain ⟨layout, calibration, recipe, next⟩ := settings
  obtain ⟨size, count⟩ := whole
  have dose : u.dose = s.dose := by rw [before]
  have control : u.control = s.control := by rw [before]
  have valves : u.valveCount = s.valveCount := congrArg (fun x : Option Layout => (x.map Layout.valveCount).getD 0) layout
  have unit : t.dose = doseInstall keep s.recipe r s.valveCount s.dose := by
    rw [← recipe, ← valves, ← dose]; rfl
  refine ⟨layout, calibration, congrArg (· + 1) next, ⟨_, rfl, rfl, next, rfl⟩, by rw [unit]; rfl, by rw [unit]; rfl, ?_, ?_, ?_,
    (congrArg State.gate before :), (congrArg State.code before :), (congrArg State.links before :)⟩
  · rw [unit]
    show (if keep = true then limitTo r.lineLimit s.dose.lineOffset else 0) = _
    rw [limitTo_eq_max_min _ (Int.natCast_nonneg _)]
    simp only [kept]
  · intro v first used
    rw [State.valve, unit, doseInstall_valve first used (by omega), convertAccumulator_eq]
    simp only [kept]
    rfl
  · rw [← layout, ← calibration, ← control]
    rfl

/-! ## The obligation -/

section
variable {p : List Byte} {s : State}

theorem serve_recipeLoad (length : lengthOk .recipeLoad p = true)
    (awaits : s.awaits ⟨.supervisor, Kind.recipeLoad.code, p, none⟩) :
    exec (.recipeLoad .supervisor p) s = .next (answer .supervisor 0x0A (ownRecipeLoad p s).1 (ownRecipeLoad p s).2) :=
  next_serve_of_awaits _ awaits rfl length

theorem recipeState_iff (s : State) : recipeState s = true ↔ s.control.state ≠ .config ∨ s.store.layout ≠ none := by
  simp [recipeState, Option.isSome_iff_ne_none]

theorem ownRecipeLoad_of_state (taken : ¬recipeState s = true) : ownRecipeLoad p s = refuse .state s := by
  simp [ownRecipeLoad, taken]

theorem ownRecipeLoad_of_range (taken : recipeState s = true)
    (invalid : ¬(recipeFlagsValid p = true ∧ recipeValid (recipeOfPayload p) = true)) : ownRecipeLoad p s = refuse .range s := by
  rw [not_and_or, Bool.not_eq_true, Bool.not_eq_true] at invalid
  rcases invalid with flags | fields
  · simp [ownRecipeLoad, taken, flags]
  · simp [ownRecipeLoad, taken, fields]

variable (taken : recipeState s = true) (flags : recipeFlagsValid p = true) (valid : recipeValid (recipeOfPayload p) = true)
include taken flags valid

theorem ownRecipeLoad_of_none (previous : s.store.previous = none) :
    ownRecipeLoad p s = recipeServed (installRecipe (recipeOfPayload p) (keepTrimsOf p) s) := by
  simp [ownRecipeLoad, taken, flags, valid, previous]

theorem ownRecipeLoad_of_busy {h : HeldRecipe} (previous : s.store.previous = some h) (working : s.control.state.working = true) :
    ownRecipeLoad p s = ({ status := .recipeBusy, payload := [h.generation, BitVec.ofNat 8 h.count] }, s) := by
  simp [ownRecipeLoad, taken, flags, valid, previous, working, u8]

theorem ownRecipeLoad_of_held {h : HeldRecipe} (previous : s.store.previous = some h) (idle : s.control.state.working = false) :
    ownRecipeLoad p s = recipeServed (installRecipe (recipeOfPayload p) (keepTrimsOf p) (flushQueue s)) := by
  simp [ownRecipeLoad, taken, flags, valid, previous, idle]

end

theorem working_eq_false {op : OpState} (idle : op = .config ∨ op = .ready) : op.working = false := by
  rcases idle with rfl | rfl <;> rfl

theorem working_of_run_or_halt {op : OpState} (works : op = .run ∨ op = .halt) : op.working = true := by
  rcases works with rfl | rfl <;> rfl

/-- Settles O55: the refusals in their order, and the installation by whether an outgoing recipe is held, is carried, or must first be
flushed away. -/
theorem recipeLoadInstalls : Obligations.RecipeLoadInstalls := by
  intro p s length awaits r replies valid keep loads gen lim installed
  have taken_iff : recipeState s = true ↔ loads := recipeState_iff s
  have valid_iff : recipeFlagsValid p = true ∧ recipeValid r = true ↔ valid := by
    rw [recipeFlagsValid_iff, recipeValid_iff, and_assoc]
  have settings : s.store.layout = s.store.layout ∧ s.store.calibration = s.store.calibration ∧ s.recipe = s.recipe ∧
    s.store.nextGeneration = s.store.nextGeneration := ⟨rfl, rfl, rfl, rfl⟩
  refine ⟨fun other => ?_, fun loads invalid => ?_, fun h loads ok previous works => ?_, fun loads ok whole previous =>
    ⟨fun h current carried => ?_, fun h current empty => ?_, fun current => ?_⟩, fun h loads ok whole agree previous idle => ?_⟩
  · show exec _ _ = _
    rw [serve_recipeLoad length awaits, ownRecipeLoad_of_state (mt taken_iff.mp other)]; rfl
  · show exec _ _ = _
    rw [serve_recipeLoad length awaits, ownRecipeLoad_of_range (taken_iff.mpr loads) (mt valid_iff.mp invalid)]; rfl
  · obtain ⟨flags, fields⟩ := valid_iff.mpr ok
    show exec _ _ = _
    rw [serve_recipeLoad length awaits,
      ownRecipeLoad_of_busy (taken_iff.mpr loads) flags fields previous (working_of_run_or_halt works)]
  · obtain ⟨flags, fields⟩ := valid_iff.mpr ok
    refine ⟨_, ?_, recipeInstalled_fields keepTrimsOf_iff whole rfl settings, rfl, rfl, rfl, rfl, rfl⟩
    show exec _ _ = _
    rw [serve_recipeLoad length awaits, ownRecipeLoad_of_none (taken_iff.mpr loads) flags fields previous,
      installRecipe_of_carried current carried, recipeServed_installed]
    rfl
  · obtain ⟨flags, fields⟩ := valid_iff.mpr ok
    refine ⟨_, ?_, recipeInstalled_fields keepTrimsOf_iff whole rfl settings, rfl, rfl, rfl, rfl, rfl⟩
    show exec _ _ = _
    rw [serve_recipeLoad length awaits, ownRecipeLoad_of_none (taken_iff.mpr loads) flags fields previous,
      installRecipe_of_empty current empty, recipeServed_installed]
    rfl
  · obtain ⟨flags, fields⟩ := valid_iff.mpr ok
    refine ⟨_, ?_, recipeInstalled_fields keepTrimsOf_iff whole rfl settings, rfl, rfl, rfl, rfl, rfl⟩
    show exec _ _ = _
    rw [serve_recipeLoad length awaits, ownRecipeLoad_of_none (taken_iff.mpr loads) flags fields previous,
      installRecipe_of_first previous current, recipeServed_installed]
    rfl
  · obtain ⟨flags, fields⟩ := valid_iff.mpr ok
    have ⟨_, _, _, heldBy⟩ := agree
    obtain ⟨-, -, -, there⟩ := heldBy h previous
    obtain ⟨o, outgoing⟩ := Option.ne_none_iff_exists'.mp there
    have flushed := flushQueue_flushed s
    have before := flushed.frame
    have current : (flushQueue s).store.current = some { o with count := 0 } := by
      rw [flushed.store agree, outgoing]; rfl
    have ⟨_, _, _, next⟩ := flushed.settings
    have moment : (flushQueue s).now = s.now := by rw [before]
    let a := (raiseOn .supervisor .recipeRetired o.generation.toNat (flushQueue s)).attention
    refine ⟨recipeInstalled r (keepTrimsOf p) a none (flushQueue s), o, ?_, recipeInstalled_fields keepTrimsOf_iff whole ?_
      flushed.settings, rfl, outgoing, ?_, ?_, ?_, flushed.dwell, flushed.still⟩
    · show exec _ _ = _
      rw [serve_recipeLoad length awaits, ownRecipeLoad_of_held (taken_iff.mpr loads) flags fields previous (working_eq_false idle),
        installRecipe_of_empty current rfl, recipeServed_installed, next]
      rfl
    · rw [before]
    · show (flushQueue s).tracking = _
      rw [before]
    · intro ring unread
      have listed := flushed.list ring unread
      have quality := raiseOn_att_other (l := .supervisor) (k := .quality) .recipeRetired o.generation.toNat (flushQueue s) nofun
      have filler := raiseOn_att_other (l := .supervisor) (k := .filler) .recipeRetired o.generation.toNat (flushQueue s) nofun
      have same (k : Link) : (recipeInstalled r (keepTrimsOf p) a none (flushQueue s)).att k =
        (raiseOn .supervisor .recipeRetired o.generation.toNat (flushQueue s)).att k := rfl
      unfold State.flushedList at *
      rw [same, same, quality, filler]
      exact listed
    · show (raiseOn .supervisor .recipeRetired o.generation.toNat (flushQueue s)).att .supervisor = _
      rw [raiseOn_att_same, moment, flushed.retired agree, State.attRetired, previous]

end Sys2Proof.Machine

/-! The post of a reading; START, STOP and CLEAR; the line command decoder (O56, O58). -/

namespace Sys2Proof.Machine

/-! ## The post of a reading (R51, R82) -/

section
variable {w : Weighing} {n : Serial} {c : CanRecord} {ahead rest : List CanRecord} {res : WeighResult} {s : State}

/-- A weighing that has no record to post to: against nothing, or its record is not ON_PLATFORM in the queue (R51). -/
def Weighing.unbound (w : Weighing) (q : List CanRecord) : Prop :=
  w.binding = none ∨ ∃ n, w.binding = some n ∧ ∀ c ∈ q, ¬(c.serial = n ∧ c.stage = .onPlatform)

theorem post_of_unbound (free : w.unbound s.tracking.queue) : post w res s = s := by
  rcases free with against | ⟨n, bound, absent⟩
  · rw [post, against]
  · rw [post, bound]
    show postTo n res s = s
    rw [postTo, find_unbound absent]

theorem post_of_bound (bound : w.binding = some n) (queue : s.tracking.queue = ahead ++ c :: rest)
    (first : ∀ a ∈ ahead, ¬(a.serial = n ∧ a.stage = .onPlatform)) (serial : c.serial = n) (stage : c.stage = .onPlatform) :
    let rd := readingOf s.store c.generation res
    post w res s = handToDose rd c { s with tracking := { s.tracking with queue := ahead ++ postedRecord s rd c :: rest } } := by
  obtain ⟨found, changed⟩ := find_bound queue first ⟨serial, stage⟩ (postedRecord s (readingOf s.store c.generation res))
  rw [post, bound]
  show postTo n res s = _
  rw [postTo, found]
  dsimp only
  rw [changed]

/-- The reasons of a record after its reading has been posted (R82). -/
theorem mem_postedRecord (s : State) (rd : Reading) (c : CanRecord) (r : Reason) :
    r ∈ (postedRecord s rd c).reasons ↔ r ∈ c.reasons ∨ r ∈ readingReasons s.store c.generation rd ∨
      (r = .probation ∧ c.origin = .filled ∧ ∃ v left, c.valve = some v ∧ (s.valve v).state = .probation left) := by
  rw [postedRecord, mem_withReasons, List.mem_append, mem_probationReasons]

theorem mem_postedRecord_of_noReading (s : State) (cause : NoReadingCause) (c : CanRecord) (r : Reason) :
    r ∈ (postedRecord s (.noReading cause) c).reasons ↔ r ∈ c.reasons ∨ r = .noReading ∨
      (r = .probation ∧ c.origin = .filled ∧ ∃ v left, c.valve = some v ∧ (s.valve v).state = .probation left) := by
  rw [mem_postedRecord]
  simp [readingReasons]

/-- What a weighing that ends with a cause leaves (R47, R52). -/
theorem endWithCause_of_other (cause : NoReadingCause) (other : ∀ w, s.weigh.platform ≠ .dwell w) :
    endWithCause cause s = s := by
  unfold endWithCause
  split
  · next w dwell => exact absurd dwell (other w)
  · rfl

theorem endWithCause_of_unbound (cause : NoReadingCause) (dwell : s.weigh.platform = .dwell w)
    (free : w.unbound s.tracking.queue) :
    endWithCause cause s = { s with weigh := { s.weigh with platform := .waitClear } } := by
  rw [endWithCause, dwell]
  exact post_of_unbound (s := s.setWeigh { s.weigh with platform := .waitClear }) free

theorem endWithCause_of_bound (cause : NoReadingCause) (dwell : s.weigh.platform = .dwell w) (bound : w.binding = some n)
    (queue : s.tracking.queue = ahead ++ c :: rest) (first : ∀ a ∈ ahead, ¬(a.serial = n ∧ a.stage = .onPlatform))
    (serial : c.serial = n) (stage : c.stage = .onPlatform) : ∃ rs,
      (∀ r, r ∈ rs ↔ r ∈ c.reasons ∨ r = .noReading ∨ (r = .probation ∧ c.origin = .filled ∧
        ∃ v left, c.valve = some v ∧ (s.valve v).state = .probation left)) ∧
      endWithCause cause s = { s with
        weigh := { s.weigh with platform := .waitClear }
        tracking := { s.tracking with queue := ahead ++
          { c with reading := some (.noReading cause), stage := .weighed, reasons := rs } :: rest } } := by
  refine ⟨_, mem_postedRecord_of_noReading s cause c, ?_⟩
  rw [endWithCause, dwell]
  exact post_of_bound (s := s.setWeigh { s.weigh with platform := .waitClear }) bound queue first serial stage

end

/-! ## START, STOP and CLEAR (R171, R174, R175, R179) -/

section
variable {s : State}

theorem serve_start (awaits : s.awaits ⟨.supervisor, Kind.start.code, [], none⟩) :
    exec (.start .supervisor []) s = .next (answer .supervisor 0x0C (ownStart s).1 (ownStart s).2) :=
  next_serve_of_awaits _ awaits rfl rfl

theorem serve_stop (awaits : s.awaits ⟨.supervisor, Kind.stop.code, [], none⟩) :
    exec (.stop .supervisor []) s = .next (answer .supervisor 0x0D (ownStop s).1 (ownStop s).2) :=
  next_serve_of_awaits _ awaits rfl rfl

theorem serve_clear (awaits : s.awaits ⟨.supervisor, Kind.clear.code, [], none⟩) :
    exec (.clear .supervisor []) s = .next (answer .supervisor 0x0E (ownClear s).1 (ownClear s).2) :=
  next_serve_of_awaits _ awaits rfl rfl

theorem ownStart_of_ready (ready : s.control.state = .ready) (sound : s.weigh.cellFault = false) :
    ownStart s = (.ok [2], startLine s) :=
  if_neg (by rw [ready, sound]; decide)

theorem working_iff (op : OpState) : op.working = true ↔ op = .run ∨ op = .halt := by cases op <;> decide

theorem ownStop_of_working (working : s.control.state.working = true) : ownStop s = (.ok [1], stopLine s) := by
  rw [ownStop, working]; rfl

theorem clearAllowed_iff (s : State) : clearAllowed s = true ↔ s.control.state = .halt ∧ s.weigh.cellFault = false := by
  simp [clearAllowed]

theorem ownClear_of_allowed (allowed : clearAllowed s = true) : ownClear s = (.ok [2], clearLine s) := by
  rw [ownClear, if_pos allowed]; rfl

theorem ownClear_of_not_allowed (refused : ¬clearAllowed s = true) : ownClear s = refuse .state s := if_neg refused

/-- The refusal of CLEAR is the negation of the states that take it. -/
theorem not_clearAllowed (refused : s.control.state ≠ .halt ∨ s.weigh.cellFault = true) : ¬clearAllowed s = true := by
  rw [clearAllowed_iff]
  rintro ⟨halt, sound⟩
  rcases refused with other | fault
  · exact other halt
  · rw [fault] at sound; cases sound

theorem exec_lineClear_of_space (released : s.resetHeld = false) (decoder : s.control.decoder = .space 1)
    (long : ms 40 ≤ s.spell) : exec .lineClear s = .next (handClear (setDecoder .idle s)) :=
  congrArg Host.Outcome.next ((unlessReset_of_released released).trans (endCommand_of_space handClear decoder long))

/-- A line command that is ignored is recorded, and no more (R179). -/
theorem handLine_of_ignored (k : Nat) {allowed : State → Bool} (act : State → State) (ignored : ¬allowed s = true) :
    handLine k allowed act s = { s with control := { s.control with lastCommand := some { number := k, taken := false } } } := by
  simp [handLine, ignored, State.setControl]

theorem handLine_of_taken (k : Nat) {allowed : State → Bool} (act : State → State) (taken : allowed s = true) :
    handLine k allowed act s = { act s with control :=
      { (act s).control with lastCommand := some { number := k, taken := true } } } := by
  simp [handLine, taken, State.setControl]

/-- Settles O56: each request by its owner, START by the capture and STOP by the weighing it finds in progress. -/
theorem startStopClear : Obligations.StartStopClear := by
  intro s
  refine ⟨fun awaits => ⟨fun refused => ?_, fun ready sound idle => ?_, fun ready sound running => ?_⟩,
    fun awaits => ⟨fun idle => ?_, fun works other => ?_, fun w works dwell free => ?_,
      fun w n ahead c rest works dwell bound queue first serial stage => ?_⟩,
    fun awaits => ⟨fun refused => ?_, fun halt sound => ?_⟩,
    fun released decoder long => ⟨fun refused => ?_, fun halt sound => ?_⟩⟩
  · rw [serve_start awaits, ownStart, if_pos refused]; rfl
  · rw [serve_start awaits, ownStart_of_ready ready sound, startLine, abortCapture_of_none _ idle]; rfl
  · rw [serve_start awaits, ownStart_of_ready ready sound, startLine, abortCapture_of_capture _ running]; rfl
  · rw [serve_stop awaits, ownStop, if_pos (by simpa using mt (working_iff _).mp idle)]; rfl
  · rw [serve_stop awaits, ownStop_of_working ((working_iff _).mpr works), stopLine, endWithCause_of_other _ other]; rfl
  · rw [serve_stop awaits, ownStop_of_working ((working_iff _).mpr works), stopLine, endWithCause_of_unbound _ dwell free]; rfl
  · obtain ⟨rs, reasons, ended⟩ := endWithCause_of_bound .flushedDuringDwell dwell bound queue first serial stage
    refine ⟨rs, reasons, ?_⟩
    rw [serve_stop awaits, ownStop_of_working ((working_iff _).mpr works), stopLine, ended]; rfl
  · rw [serve_clear awaits, ownClear_of_not_allowed (not_clearAllowed refused)]; rfl
  · rw [serve_clear awaits, ownClear_of_allowed ((clearAllowed_iff s).mpr ⟨halt, sound⟩)]; rfl
  · rw [exec_lineClear_of_space released decoder long, handClear,
      handLine_of_ignored (s := setDecoder .idle s) 1 clearLine (not_clearAllowed refused)]
    rfl
  · rw [exec_lineClear_of_space released decoder long, handClear,
      handLine_of_taken (s := setDecoder .idle s) 1 clearLine ((clearAllowed_iff _).mpr ⟨halt, sound⟩)]
    rfl

end

/-! ## The line command decoder (R178, R179) -/

section
variable {s : State}

/-- No bound of the spell timer is reached, so an edge finds the decoder as it is. -/
theorem settleSpell_of_none (ends : commandEnd s = none) (low : lowOverrun s = false) (high : recovered s = false) :
    settleSpell s = s := by
  simp [settleSpell, spellTimeout, ends, low, high]

theorem exec_fall (high : s.pins.lcmdHigh = true) (released : s.resetHeld = false) (settled : settleSpell s = s) :
    exec .lcmdFallingEdge s = .next (newSpell false (fallingEffect s)) := by
  show Host.Outcome.next (lineFalls s) = _
  rw [lineFalls, high, released, settled]; rfl

theorem exec_rise (low : s.pins.lcmdHigh = false) (released : s.resetHeld = false) (settled : settleSpell s = s) :
    exec .lcmdRisingEdge s = .next (newSpell true (risingEffect s)) := by
  show Host.Outcome.next (lineRises s) = _
  rw [lineRises, low, released, settled]; rfl

theorem abandonCommand_eq (s : State) : abandonCommand s = { s with control := { s.control with
    decoder := .recover, errors := min 65535 (s.control.errors + 1) } } := by
  rw [abandonCommand, satInc_eq_min]; rfl

theorem settleSpell_of_idle (decoder : s.control.decoder = .idle) : settleSpell s = s :=
  settleSpell_of_none (by simp [commandEnd, decoder]) (by simp [lowOverrun, decoder]) (by simp [recovered, decoder])

theorem settleSpell_of_gap (decoder : s.control.decoder = .gap) (short : s.spell < ms 40) : settleSpell s = s :=
  settleSpell_of_none (by simp [commandEnd, decoder, short]) (by simp [lowOverrun, decoder]) (by simp [recovered, decoder])

theorem settleSpell_of_space {n : Nat} (decoder : s.control.decoder = .space n) (short : s.spell < ms 40) : settleSpell s = s :=
  settleSpell_of_none (by simp [commandEnd, decoder, short]) (by simp [lowOverrun, decoder]) (by simp [recovered, decoder])

theorem settleSpell_of_lead (decoder : s.control.decoder = .lead) (short : s.spell ≤ ms 60) : settleSpell s = s :=
  settleSpell_of_none (by simp [commandEnd, decoder]) (by simp [lowOverrun, decoder, short]) (by simp [recovered, decoder])

theorem settleSpell_of_pulse {n : Nat} (decoder : s.control.decoder = .pulse n) (short : s.spell ≤ ms 15) : settleSpell s = s :=
  settleSpell_of_none (by simp [commandEnd, decoder]) (by simp [lowOverrun, decoder, short]) (by simp [recovered, decoder])

theorem settleSpell_of_recover (decoder : s.control.decoder = .recover) (short : s.pins.lcmdHigh = false ∨ s.spell < ms 40) :
    settleSpell s = s :=
  settleSpell_of_none (by simp [commandEnd, decoder]) (by simp [lowOverrun, decoder]) (by
    rcases short with low | short
    · simp [recovered, low]
    · simp [recovered, short])

theorem exec_spellTimeout (released : s.resetHeld = false) : exec .lcmdSpellTimeout s = .next (spellTimeout s) :=
  congrArg Host.Outcome.next (unlessReset_of_released released)

theorem newSpell_abandonCommand (high : Bool) (s : State) : newSpell high (abandonCommand s) = { s with
    pins := { s.pins with lcmdHigh := high }
    control := { s.control with decoder := .recover, spellStart := s.now, errors := min 65535 (s.control.errors + 1) } } := by
  rw [abandonCommand_eq]; rfl

/-- A command that is handed to no block: of none or of more than five pulses (R179). -/
theorem endBadCount_of_count {n : Nat} (ends : commandEnd s = some n) (bad : ¬(1 ≤ n ∧ n ≤ 5)) : endBadCount s = { s with
    control := { s.control with decoder := .idle, errors := min 65535 (s.control.errors + 1) } } := by
  rw [endBadCount, ends]
  dsimp only
  rw [if_neg bad, badCount, satInc_eq_min]
  rfl

/-- Settles O58: an edge finds the decoder as it is, and moves it or abandons the command by the row of its state in the table. -/
theorem lineDecoderActs : Obligations.LineDecoderActs := by
  refine ⟨fun s released => ⟨fun high => ⟨fun decoder => ?_, fun decoder short => ⟨fun long => ?_, fun brief => ?_⟩,
    fun n decoder short => ⟨fun low up room => ?_, fun outside => ?_⟩, fun decoder short => ?_, fun decoder long => ?_⟩,
    fun low => ⟨fun decoder => ⟨fun long short => ?_, fun brief => ?_⟩, fun n decoder => ⟨fun long short => ?_, fun brief => ?_⟩,
      fun decoder => ?_, fun past => ?_⟩⟩, fun n s released long counted => ?_⟩
  · show exec _ _ = _
    rw [exec_fall high released (settleSpell_of_idle decoder), fallingEffect, decoder]; rfl
  · show exec _ _ = _
    rw [exec_fall high released (settleSpell_of_gap decoder short), fallingEffect, decoder]
    dsimp only
    rw [if_pos long]; rfl
  · show exec _ _ = _
    rw [exec_fall high released (settleSpell_of_gap decoder short), fallingEffect, decoder]
    dsimp only
    rw [if_neg (not_le.mpr brief), newSpell_abandonCommand]
  · show exec _ _ = _
    rw [exec_fall high released (settleSpell_of_space decoder short), fallingEffect, decoder]
    dsimp only
    rw [if_pos ⟨low, up, room⟩]; rfl
  · show exec _ _ = _
    rw [exec_fall high released (settleSpell_of_space decoder short), fallingEffect, decoder]
    dsimp only
    have fails : ¬(ms 5 ≤ s.spell ∧ s.spell ≤ ms 15 ∧ n < 8) := by
      rintro ⟨low, up, room⟩
      rcases outside with below | above | full
      · exact absurd low (not_le.mpr below)
      · exact absurd up (not_le.mpr above)
      · exact absurd room (not_lt.mpr full)
    rw [if_neg fails, newSpell_abandonCommand]
  · show exec _ _ = _
    rw [exec_fall high released (settleSpell_of_recover decoder (.inr short)), fallingEffect, decoder]
    simp only [newSpell, ← decoder]
  · rw [exec_spellTimeout released, spellTimeout, if_neg (by simp [lowOverrun, decoder]),
      if_pos (by simp [recovered, decoder, high, long])]
    rfl
  · show exec _ _ = _
    rw [exec_rise low released (settleSpell_of_lead decoder short), risingEffect, decoder]
    dsimp only
    rw [if_pos long]; rfl
  · have short : s.spell ≤ ms 60 := le_trans brief.le (by decide)
    show exec _ _ = _
    rw [exec_rise low released (settleSpell_of_lead decoder short), risingEffect, decoder]
    dsimp only
    rw [if_neg (not_le.mpr brief), newSpell_abandonCommand]
  · show exec _ _ = _
    rw [exec_rise low released (settleSpell_of_pulse decoder short), risingEffect, decoder]
    dsimp only
    rw [if_pos long]; rfl
  · have short : s.spell ≤ ms 15 := le_trans brief.le (by decide)
    show exec _ _ = _
    rw [exec_rise low released (settleSpell_of_pulse decoder short), risingEffect, decoder]
    dsimp only
    rw [if_neg (not_le.mpr brief), newSpell_abandonCommand]
  · show exec _ _ = _
    rw [exec_rise low released (settleSpell_of_recover decoder (.inl low)), risingEffect, decoder]
    simp only [newSpell, ← decoder]
  · have overrun : lowOverrun s = true := by
      rcases past with ⟨decoder, past⟩ | ⟨n, decoder, past⟩
      · simp [lowOverrun, decoder, past]
      · simp [lowOverrun, decoder, past]
    rw [exec_spellTimeout released, spellTimeout, if_pos overrun, abandonCommand_eq]
  · show Host.Outcome.next (unlessReset endBadCount s) = _
    rw [unlessReset_of_released released]
    rcases counted with ⟨decoder, rfl⟩ | ⟨decoder, bad⟩
    · rw [endBadCount_of_count (n := 0) (by simp [commandEnd, decoder, long]) (by decide)]
    · rw [endBadCount_of_count (commandEnd_of_space decoder long) bad]

end

end Sys2Proof.Machine

/-! Breaks, the times of the links, and the frame assembler (O4, O5, O7, O8). -/

namespace Sys2Proof.Machine

/-! ## The times and steps of the links (R186, R190, R191, R209) -/

section
variable {s : State} (released : s.resetHeld = false)
include released

/-- An event acts while the reset pin is released. -/
theorem next_unlessReset (f : State → State) : (.next (unlessReset f s) : Result) = .next (f s) :=
  congrArg Host.Outcome.next (unlessReset_of_released released)

theorem exec_pauseExpiry {l : Link} {e : Moment} (pause : (s.link l).pause = some e) (due : e ≤ s.now) :
    exec (.pauseExpiry l) s = .next (s.setLink l { s.link l with pause := none }) :=
  (next_unlessReset released _).trans (congrArg Host.Outcome.next (if_pos (by simp [reached, pause, due])))

theorem exec_heldAnswerPlaced {l : Link} {a : List Byte} (held : (s.link l).held = some a)
    (room : (s.link l).port.tx.fifo.length + a.length ≤ 128) :
    exec (.heldAnswerPlaced l) s = .next (s.setLink l ({ s.link l with held := none }.place a)) := by
  have fits : (s.link l).placeable = some a := by
    rw [MasterLink.placeable, held]
    exact if_pos (decide_eq_true room)
  refine (next_unlessReset released _).trans ?_
  rw [placeHeld, fits]

theorem exec_attentionHoldExpiry {l : Link} {e : Moment} (hold : (s.att l).hold = some e) (due : e ≤ s.now) :
    exec (.attentionHoldExpiry l) s = .next (s.setAtt l { s.att l with hold := none }) :=
  (next_unlessReset released _).trans (congrArg Host.Outcome.next (if_pos (by simp [reached, hold, due])))

theorem exec_characterSent {ch : Channel} {c : Byte} {rest : List Byte} (fifo : (s.port ch).tx.fifo = c :: rest)
    (running : s.running ch = true) (free : (s.port ch).lineFree s.now = true) :
    exec (.characterSent ch) s = .next (s.setPort ch { s.port ch with
      tx := { fifo := rest, sending := some { char := c, began := s.now } } }) := by
  refine (next_unlessReset released _).trans ?_
  rw [sendCharacter]
  dsimp only
  rw [fifo]
  dsimp only
  rw [running, free]
  rfl

end

/-- The pause of its link is all that keeps a transmitter from RUNNING (R191). -/
theorem running_of_no_pause {s : State} {ch : Channel} (free : ∀ k, masterOf ch = some k → (s.link k).pause = none) :
    s.running ch = true := by
  cases ch with
  | filler => exact Option.isNone_iff_eq_none.mpr (free .filler rfl)
  | supervisor => exact Option.isNone_iff_eq_none.mpr (free .supervisor rfl)
  | quality => exact Option.isNone_iff_eq_none.mpr (free .quality rfl)
  | reader => rfl

theorem lineFree_of_sent {p : Port} {now : Moment} (sent : ∀ b, p.tx.sending = some b →
    22 * 20000000 ≤ 2 * linkSpeed p.straps * (now - b.began)) : p.lineFree now = true := by
  unfold Port.lineFree
  split
  · rfl
  · next b sending => exact decide_eq_true (sent b sending)

/-- Settles O8: each time at its bound is the positive branch of its command. -/
theorem linkTimesAndTransmitters : Obligations.LinkTimesAndTransmitters := fun _ _ released =>
  ⟨fun _ => exec_pauseExpiry released, fun _ => exec_heldAnswerPlaced released, fun _ => exec_attentionHoldExpiry released,
    fun _ _ _ fifo free sent => exec_characterSent released fifo (running_of_no_pause free) (lineFree_of_sent sent)⟩

/-! ## Breaks and their ends (R72, R184, R204) -/

section
variable {s : State}

theorem setPort_port (ch : Channel) (p : Port) (s : State) : (s.setPort ch p).port ch = p := by cases ch <;> rfl

theorem setPort_port_other {ch other : Channel} (p : Port) (apart : other ≠ ch) (s : State) :
    (s.setPort ch p).port other = s.port other := by
  cases ch with
  | reader => cases other with
    | reader => exact absurd rfl apart
    | filler | supervisor | quality => rfl
  | filler => cases other with
    | filler => exact absurd rfl apart
    | supervisor | quality | reader => rfl
  | supervisor => cases other with
    | supervisor => exact absurd rfl apart
    | filler | quality | reader => rfl
  | quality => cases other with
    | quality => exact absurd rfl apart
    | filler | supervisor | reader => rfl

theorem setPort_frame (ch : Channel) (p : Port) (s : State) :
    s.setPort ch p = { s with links := (s.setPort ch p).links, reader := (s.setPort ch p).reader } := by cases ch <;> rfl

theorem breakReader_of_low (low : s.reader.rx.breakLow = true) : breakReader s = s := if_pos low

/-- A break on the reader link from OPEN, and what HELD adds: one Xon (R72). -/
theorem breakReader_of_opened (high : s.reader.rx.breakLow = false) (opened : s.code.flow = .opened) : breakReader s = { s with
    reader := { s.reader with rx := { s.reader.rx with fifo := [], silence := none, breakLow := true },
                              tx := { s.reader.tx with fifo := [] } }
    code := { s.code with assembler := .idle } } := by
  rw [breakReader, high, if_neg Bool.false_ne_true]
  dsimp only
  rw [if_neg (by rw [opened]; exact nofun)]
  rfl

theorem breakReader_of_held (high : s.reader.rx.breakLow = false) (held : s.code.flow = .held) : breakReader s = { s with
    reader := { s.reader with rx := { s.reader.rx with fifo := [], silence := none, breakLow := true },
                              tx := { s.reader.tx with fifo := [xon] } }
    code := { s.code with assembler := .idle, flow := .opened } } := by
  rw [breakReader, high, if_neg Bool.false_ne_true]
  dsimp only
  rw [if_pos held]
  rfl

/-- Settles O7: a break writes the link anew, and its end clears one flag of the receiver. -/
theorem breaksAndTheirEnds : Obligations.BreaksAndTheirEnds := by
  refine ⟨fun l s released => ⟨fun low => ?_, fun high => ⟨(s.link l).broken, ?_, rfl, rfl, rfl, rfl, rfl, rfl, rfl, rfl, rfl, rfl,
    rfl, rfl⟩⟩, fun s released high => ?_, fun s released low => ?_,
    fun ch s released => ⟨_, next_unlessReset released (endBreak ch), setPort_frame .., setPort_port ..,
      fun other apart => setPort_port_other _ apart s⟩⟩
  · exact (next_unlessReset released (breakLink l)).trans (congrArg Host.Outcome.next (if_pos low))
  · exact (next_unlessReset released (breakLink l)).trans (congrArg Host.Outcome.next (if_neg (by simp [high])))
  · have run : exec .readerBreak s = .next (breakReader s) := next_unlessReset released breakReader
    cases flow : s.code.flow with
    | opened =>
      rw [breakReader_of_opened high flow] at run
      exact ⟨_, run, rfl, rfl, rfl, rfl, rfl, nofun, fun _ => ⟨rfl, rfl⟩⟩
    | held =>
      rw [breakReader_of_held high flow] at run
      exact ⟨_, run, rfl, rfl, rfl, rfl, rfl, fun _ => ⟨rfl, rfl⟩, nofun⟩
  · exact (next_unlessReset released breakReader).trans (congrArg Host.Outcome.next (breakReader_of_low low))

end

/-! ## The frame assembler, entry by entry (R187, R188) -/

/-- The link `l` with its assembler in a state and its receive FIFO holding what is left. -/
def State.midFrame (s : State) (l : Link) (a : FrameAssembler) (fifo : List Entry) : State :=
  s.setLink l { (s.link l).setRx { (s.link l).port.rx with fifo := fifo } with assembler := a }

section
variable {l : Link} {s : State} {e : Entry} {rest : List Entry}

theorem takes_iff (m : MasterLink) : m.takes = true ↔ m.held = none ∧ m.request = none := by
  simp [MasterLink.takes]

theorem takeFrameEntry_of_busy (busy : (s.link l).held ≠ none ∨ (s.link l).request ≠ none) : takeFrameEntry l s = s := by
  have waits : ¬(s.link l).takes = true := by rw [takes_iff]; tauto
  unfold takeFrameEntry
  dsimp only
  split
  · rfl
  · exact if_neg waits

theorem takeFrameEntry_of_takes (takes : (s.link l).takes = true) (fifo : (s.link l).port.rx.fifo = e :: rest) :
    takeFrameEntry l s = actAssembler l (assembleEntry (s.link l).assembler e)
      (s.setLink l ((s.link l).setRx { (s.link l).port.rx with fifo := rest })) := by
  rw [takeFrameEntry]
  dsimp only
  rw [fifo]
  exact if_pos takes

theorem actAssembler_goOn (a : FrameAssembler) (m : MasterLink) (s : State) :
    actAssembler l (.goOn a) (s.setLink l m) = s.setLink l { m with assembler := a } := by
  simp [actAssembler]

theorem actAssembler_complete (r : Request) (m : MasterLink) (s : State) :
    actAssembler l (.complete r) (s.setLink l m) = s.setLink l { m with assembler := .hunt, request := some r } := by
  simp [actAssembler]

theorem actAssembler_drop (n : CountName) (m : MasterLink) (s : State) :
    actAssembler l (.drop n) (s.setLink l m) =
      let t := s.setLink l { m with assembler := .hunt, counts := m.counts.inc n, errorArmed := false }
      if m.errorArmed then raiseOn l .linkError n.code t else t := by
  simp [actAssembler, countError]

theorem actAssembler_drop_armed (n : CountName) {m : MasterLink} (s : State) (armed : m.errorArmed = true) :
    actAssembler l (.drop n) (s.setLink l m) = raiseOn l .linkError n.code
      (s.setLink l { m with assembler := .hunt, counts := m.counts.inc n, errorArmed := false }) := by
  rw [actAssembler_drop, armed]; rfl

theorem actAssembler_drop_disarmed (n : CountName) {m : MasterLink} (s : State) (disarmed : m.errorArmed = false) :
    actAssembler l (.drop n) (s.setLink l m) = s.setLink l { m with assembler := .hunt, counts := m.counts.inc n } := by
  rw [actAssembler_drop, ← disarmed]; simp [disarmed]

theorem assembleEntry_of_gap (a : FrameAssembler) (gap : e.char = none) :
    assembleEntry a e = if a = .hunt then .goOn .hunt else .drop .frameTimeouts := by
  rw [assembleEntry, gap]

theorem assembleEntry_of_flagged (a : FrameAssembler) (char : e.char ≠ none) (flagged : e.flagged = true) :
    assembleEntry a e = .goOn .hunt := by
  obtain ⟨c, some_⟩ := Option.ne_none_iff_exists'.mp char
  rw [assembleEntry, some_]
  exact if_pos flagged

theorem assembleEntry_of_character (a : FrameAssembler) {c : Byte} (char : e.char = some c) (clean : e.flagged = false) :
    assembleEntry a e = assembleCharacter a c e.stamp := by
  rw [assembleEntry, char]
  exact if_neg (by simp [clean])

end

/-- Settles O5: the act of the assembler by its state and the entry, and what each act leaves of the link. -/
theorem frameEntryActs : Obligations.FrameEntryActs := by
  intro l e rest s released fifo m taken leaves goes drops timeouts checks
  have run : exec (.frameEntryTaken l) s = .next (takeFrameEntry l s) := next_unlessReset released (takeFrameEntry l)
  refine ⟨fun busy => by rw [run, takeFrameEntry_of_busy busy], fun held request => ?_⟩
  have act : exec (.frameEntryTaken l) s = .next (actAssembler l (assembleEntry m.assembler e) (s.setLink l taken)) := by
    rw [run, takeFrameEntry_of_takes ((takes_iff m).mpr ⟨held, request⟩) fifo]
  have goOn {a : FrameAssembler} (acts : assembleEntry m.assembler e = .goOn a) : goes a := by
    rw [acts, actAssembler_goOn] at act; exact act
  have drop {n : CountName} (acts : assembleEntry m.assembler e = .drop n) : drops (m.counts.inc n) n.code := by
    rw [acts] at act
    exact ⟨fun disarmed => act.trans (congrArg _ (actAssembler_drop_disarmed n s disarmed)),
      fun armed => act.trans (congrArg _ (actAssembler_drop_armed n s armed))⟩
  have timeout (acts : assembleEntry m.assembler e = .drop .frameTimeouts) : drops timeouts 3 := by
    have done := drop acts
    rw [ErrorCounts.inc, satInc_eq_min] at done
    exact done
  have check (acts : assembleEntry m.assembler e = .drop .checkErrors) : drops checks 4 := by
    have done := drop acts
    rw [ErrorCounts.inc, satInc_eq_min] at done
    exact done
  refine ⟨fun gap hunt => goOn (by rw [assembleEntry_of_gap _ gap, if_pos hunt]),
    fun gap frame => timeout (by rw [assembleEntry_of_gap _ gap, if_neg frame]),
    fun char flagged => goOn (assembleEntry_of_flagged _ char flagged), fun c char clean => ?_⟩
  have acts (a : FrameAssembler) (state : m.assembler = a) : assembleEntry m.assembler e = assembleCharacter a c e.stamp := by
    rw [assembleEntry_of_character _ char clean, state]
  refine ⟨fun hunt lead => goOn ((acts _ hunt).trans (by rw [assembleCharacter, if_pos lead])),
    fun hunt other => goOn ((acts _ hunt).trans (by rw [assembleCharacter, if_neg other])),
    fun st kind => goOn (acts _ kind), fun st k length => ⟨fun long => ?_, fun zero => ?_, fun some_ short => ?_⟩,
    fun st k n q payload => ⟨fun more => ?_, fun last => ?_⟩, fun st k n q closing => ⟨fun good => ?_, fun bad => ?_⟩⟩
  · exact check ((acts _ length).trans (if_pos long))
  · exact goOn ((acts _ length).trans (by rw [assembleCharacter, if_neg (by rw [zero]; decide), if_pos zero, zero]))
  · exact goOn ((acts _ length).trans (by rw [assembleCharacter, if_neg (not_lt.mpr short), if_neg some_]))
  · exact goOn ((acts _ payload).trans (if_neg (not_le.mpr more)))
  · exact goOn ((acts _ payload).trans (if_pos last))
  · rw [(acts _ closing).trans (if_pos good), actAssembler_complete] at act
    exact act
  · exact check ((acts _ closing).trans (if_neg bad))

/-! ## A frame, character by character (R187, R188) -/

section
variable {l : Link} {s : State} {rest : List Entry}

theorem execAll_cons {i : Instr} {s t : State} (is : List Instr) (run : exec i s = .next t) :
    execAll (i :: is) s = execAll is t := by rw [execAll, run]

/-- A frame character is taken as the assembler judges it. -/
theorem exec_frameEntryTaken_midFrame {a : FrameAssembler} {c : Byte} {stamp : Option Position} (released : s.resetHeld = false)
    (takes : (s.link l).takes = true) :
    exec (.frameEntryTaken l) (s.midFrame l a (cleanEntry c stamp :: rest)) =
      .next (actAssembler l (assembleCharacter a c stamp) (s.midFrame l a rest)) := by
  have mid : (s.midFrame l a (cleanEntry c stamp :: rest)).link l =
    { (s.link l).setRx { (s.link l).port.rx with fifo := cleanEntry c stamp :: rest } with assembler := a } := by simp [State.midFrame]
  refine (next_unlessReset (s := s.midFrame l a (cleanEntry c stamp :: rest)) released (takeFrameEntry l)).trans
    (congrArg Host.Outcome.next ?_)
  rw [takeFrameEntry_of_takes (e := cleanEntry c stamp) (rest := rest) (by rw [mid]; exact takes) (by rw [mid]; rfl), mid,
    assembleEntry_of_character _ rfl rfl]
  simp [State.midFrame, MasterLink.setRx, cleanEntry]

/-- One character of a frame takes the assembler on. -/
theorem execAll_goOn {a b : FrameAssembler} {c : Byte} {stamp : Option Position} (k : Nat) (released : s.resetHeld = false)
    (takes : (s.link l).takes = true) (acts : assembleCharacter a c stamp = .goOn b) :
    execAll (List.replicate (k + 1) (.frameEntryTaken l)) (s.midFrame l a (cleanEntry c stamp :: rest)) =
      execAll (List.replicate k (.frameEntryTaken l)) (s.midFrame l b rest) := by
  rw [List.replicate_succ, execAll_cons _ (exec_frameEntryTaken_midFrame released takes), acts, State.midFrame, actAssembler_goOn]
  simp [State.midFrame, MasterLink.setRx]

/-- The characters of a payload take the assembler to the check (R188). -/
theorem execAll_payload (released : s.resetHeld = false) (takes : (s.link l).takes = true) {st : Option Position} {kind n : Byte}
    (k : Nat) : ∀ (p q : List Byte) (stamps : Nat → Option Position), p ≠ [] → q.length + p.length = n.toNat →
      execAll (List.replicate (p.length + k) (.frameEntryTaken l))
        (s.midFrame l (.payload st kind n q) (p.mapIdx (fun i c => cleanEntry c (stamps i)) ++ rest)) =
      execAll (List.replicate k (.frameEntryTaken l)) (s.midFrame l (.check st kind n (q ++ p)) rest)
  | [c], q, stamps, _, whole => by
    rw [List.length_singleton, Nat.add_comm]
    exact execAll_goOn k released takes (if_pos (by simpa using whole.ge) : assembleCharacter (.payload st kind n q) c (stamps 0) = _)
  | c :: d :: p, q, stamps, _, whole => by
    have more : ¬n.toNat ≤ q.length + 1 := by simp only [List.length_cons] at whole; omega
    have on : assembleCharacter (.payload st kind n q) c (stamps 0) = .goOn (.payload st kind n (q ++ [c])) := if_neg more
    have later := execAll_payload released takes (st := st) (kind := kind) (n := n) k (d :: p) (q ++ [c]) (fun i => stamps (i + 1)) nofun
      (by simp only [List.length_cons, List.length_append, List.length_nil] at whole ⊢; omega)
    rw [List.append_assoc, List.singleton_append] at later
    rw [List.length_cons, Nat.add_right_comm, List.mapIdx_cons, List.cons_append]
    exact (execAll_goOn _ released takes on).trans later

/-- The check that closes the sum completes the request (R188). -/
theorem execAll_check {st stamp : Option Position} {kind n c : Byte} {p : List Byte} (released : s.resetHeld = false)
    (hunt : (s.link l).assembler = .hunt) (takes : (s.link l).takes = true) (closed : sumBytes (kind :: n :: (p ++ [c])) = 0) :
    execAll (List.replicate 1 (.frameEntryTaken l)) (s.midFrame l (.check st kind n p) (cleanEntry c stamp :: rest)) =
      .next (s.setLink l { (s.link l).setRx { (s.link l).port.rx with fifo := rest } with
        request := some { kind := kind, payload := p, stamp := st } }) := by
  have acts : assembleCharacter (.check st kind n p) c stamp = .complete { kind := kind, payload := p, stamp := st } := if_pos closed
  refine (execAll_cons [] (exec_frameEntryTaken_midFrame released takes)).trans (congrArg Host.Outcome.next ?_)
  rw [acts, State.midFrame, actAssembler_complete, ← hunt]
  simp [MasterLink.setRx]

/-- The length, the payload and the check of a frame (R188). -/
theorem execAll_body {st : Option Position} {kind : Byte} {p : List Byte} (stamps : Nat → Option Position) (short : p.length ≤ 120)
    (released : s.resetHeld = false) (hunt : (s.link l).assembler = .hunt) (takes : (s.link l).takes = true) :
    execAll (List.replicate (p.length + 2) (.frameEntryTaken l)) (s.midFrame l (.length st kind)
        (cleanEntry (BitVec.ofNat 8 p.length) (stamps 0) ::
          ((p ++ [checkByte (kind :: BitVec.ofNat 8 p.length :: p)]).mapIdx (fun i c => cleanEntry c (stamps (i + 1))) ++ rest))) =
      .next (s.setLink l { (s.link l).setRx { (s.link l).port.rx with fifo := rest } with
        request := some { kind := kind, payload := p, stamp := st } }) := by
  have closed := sumBytes_append_checkByte (kind :: BitVec.ofNat 8 p.length :: p)
  cases p with
  | nil =>
    exact (execAll_goOn 1 released takes (rfl : assembleCharacter (.length st kind) 0 (stamps 0) = .goOn (.check st kind 0 []))).trans
      (execAll_check released hunt takes closed)
  | cons c p =>
    have size : (BitVec.ofNat 8 (c :: p).length).toNat = (c :: p).length := (toNat_byte _).trans (Nat.mod_eq_of_lt (by omega))
    have some : BitVec.ofNat 8 (c :: p).length ≠ 0 := fun none => by
      rw [none] at size; simp at size
    have on : assembleCharacter (.length st kind) (BitVec.ofNat 8 (c :: p).length) (stamps 0) =
        .goOn (.payload st kind (BitVec.ofNat 8 (c :: p).length) []) := (if_neg (by omega)).trans (if_neg some)
    have body := execAll_payload (st := st) (kind := kind) (n := BitVec.ofNat 8 (c :: p).length) (rest := cleanEntry
      (checkByte (kind :: BitVec.ofNat 8 (c :: p).length :: c :: p)) (stamps ((c :: p).length + 1)) :: rest)
      released takes 1 (c :: p) [] (fun i => stamps (i + 1)) nofun (by rw [size]; exact Nat.zero_add _)
    rw [List.mapIdx_concat, List.append_assoc, List.singleton_append]
    exact (execAll_goOn _ released takes on).trans (body.trans (execAll_check released hunt takes closed))

end

/-- Settles O4: the lead, the kind and the length, then the payload, then the check that closes the sum. -/
theorem frameIsAssembledAsSent : Obligations.FrameIsAssembledAsSent := by
  intro l kind p stamps rest s short released takes hunt fifo
  have start : s = s.midFrame l .hunt ((frameCharacters kind p).mapIdx (fun i c => cleanEntry c (stamps i)) ++ rest) := by
    rw [State.midFrame, ← fifo, ← hunt]
    exact (setLink_link s l).symm
  rw [congrArg (execAll _) start, frameCharacters, List.mapIdx_cons, List.mapIdx_cons, List.mapIdx_cons]
  exact (execAll_goOn (p.length + 3) released takes rfl).trans ((execAll_goOn (p.length + 2) released takes rfl).trans
    (execAll_body (fun i => stamps (i + 2)) short released hunt takes))

end Sys2Proof.Machine

/-! Reception on the master links: flow control, the phase, losses and the error counts (O6). -/

namespace Sys2Proof.Machine

/-! ## The error counts and LINK_ERROR (R192) -/

/-- The counts after an entry: one more bad character, one more overrun. -/
def ErrorCounts.incEach (c : ErrorCounts) (bad lost : Bool) : ErrorCounts :=
  { c with
    characterErrors := if bad = true then min 65535 (c.characterErrors + 1) else c.characterErrors
    overruns := if lost = true then min 65535 (c.overruns + 1) else c.overruns }

/-- LINK_ERROR is raised with a code while the flag of the link `m` was armed. -/
def raiseArmed (l : Link) (m : MasterLink) (code : Int) (s : State) : State :=
  if m.errorArmed then raiseOn l .linkError code s else s

/-- An entry moves the counts of its link, and LINK_ERROR names one of them. -/
def ErrorsCounted (l : Link) (bad lost : Bool) (s t : State) : Prop :=
  ∃ (code : Int) (choices : Nat), (code = 1 ∧ bad = true ∨ code = 2 ∧ lost = true) ∧
    t = raiseArmed l (s.link l) code (({ s with choices := choices } : State).setLink l { s.link l with
      counts := (s.link l).counts.incEach bad lost, errorArmed := false })

theorem ErrorCounts.incEach_bad (c : ErrorCounts) : c.incEach true false = c.inc .characterErrors := by
  simp [ErrorCounts.incEach, ErrorCounts.inc, satInc_eq_min]

theorem ErrorCounts.incEach_lost (c : ErrorCounts) : c.incEach false true = c.inc .overruns := by
  simp [ErrorCounts.incEach, ErrorCounts.inc, satInc_eq_min]

theorem ErrorCounts.incEach_both (c : ErrorCounts) : c.incEach true true = (c.inc .characterErrors).inc .overruns := by
  simp [ErrorCounts.incEach, ErrorCounts.inc, satInc_eq_min]

section
variable {l : Link} {s t : State} {e : Entry}

theorem countError_eq (n : CountName) (s : State) : countError l n s =
    raiseArmed l (s.link l) n.code (s.setLink l { s.link l with counts := (s.link l).counts.inc n, errorArmed := false }) := rfl

/-- A count that a raise has just disarmed raises nothing more. -/
theorem countError_raiseArmed {m k : MasterLink} (disarmed : m.errorArmed = false) (n : CountName) (code : Int) :
    countError l n (raiseArmed l k code (s.setLink l m)) =
      raiseArmed l k code (s.setLink l { m with counts := m.counts.inc n }) := by
  unfold raiseArmed
  split
  · have link : (raiseOn l .linkError code (s.setLink l m)).link l = m := setLink_link_same s l m
    rw [countError, link, if_neg (by rw [disarmed]; exact Bool.false_ne_true), disarmed]
    simp [raiseOn, State.setAtt, State.setLink, State.att]
  · simp [countError, disarmed]

theorem countEntry_of_plain (plain : e.flagged = false) : countEntry l e s = s := by
  obtain ⟨char, kept⟩ := Bool.or_eq_false_iff.mp plain
  rw [countEntry, char, kept]

/-- The free choice of log entry 3 decides only which of two counts LINK_ERROR names. -/
theorem countEntry_of_flagged (flagged : e.flagged = true) :
    ErrorsCounted l e.badCharacter e.overrun s (countEntry l e s) := by
  unfold ErrorsCounted countEntry
  cases bad : e.badCharacter <;> cases lost : e.overrun
  case false.false => simp [Entry.flagged, bad, lost] at flagged
  case true.false => exact ⟨1, s.choices, .inl ⟨rfl, rfl⟩, by rw [ErrorCounts.incEach_bad]; exact countError_eq ..⟩
  case false.true => exact ⟨2, s.choices, .inr ⟨rfl, rfl⟩, by rw [ErrorCounts.incEach_lost]; exact countError_eq ..⟩
  case true.true =>
    rw [ErrorCounts.incEach_both]
    dsimp only
    split
    · exact ⟨1, s.choices + 1, .inl ⟨rfl, rfl⟩, (congrArg (countError l _) (countError_eq ..)).trans
        (countError_raiseArmed rfl ..)⟩
    · exact ⟨2, s.choices + 1, .inr ⟨rfl, rfl⟩, (congrArg (countError l _) (countError_eq ..)).trans
        ((countError_raiseArmed rfl ..).trans (by simp only [ErrorCounts.inc]; rfl))⟩

theorem raiseArmed_att_other {k : Link} (other : k ≠ l) (m : MasterLink) (code : Int) (s : State) :
    (raiseArmed l m code s).att k = s.att k := by
  unfold raiseArmed
  split
  · exact raiseOn_att_other _ _ _ other
  · rfl

theorem raiseArmed_link (k : Link) (m : MasterLink) (code : Int) (s : State) : (raiseArmed l m code s).link k = s.link k := by
  unfold raiseArmed
  split <;> rfl

theorem raiseArmed_frame (m : MasterLink) (code : Int) (s : State) :
    raiseArmed l m code s = { s with attention := (raiseArmed l m code s).attention } := by
  unfold raiseArmed
  split <;> rfl

/-! ## What the counting of an entry leaves (R192) -/

/-- What counting an entry does to its link `m` and its attention state, where the entry is bad or comes after a loss. -/
structure EntryCounted (l : Link) (bad : Prop) (lost : Bool) (m : MasterLink) (s t : State) : Prop where
  only : t = { s with links := t.links, attention := t.attention, choices := t.choices }
  others : ∀ k, k ≠ l → t.link k = s.link k ∧ t.att k = s.att k
  link : t.link l = { m with counts := (t.link l).counts, errorArmed := (t.link l).errorArmed }
  plain : ¬bad ∧ lost = false → (t.link l).counts = m.counts ∧ (t.link l).errorArmed = m.errorArmed ∧ t.att l = s.att l
  characterErrors : bad → (t.link l).counts.characterErrors = min 65535 (m.counts.characterErrors + 1)
  overruns : lost = true → (t.link l).counts.overruns = min 65535 (m.counts.overruns + 1)
  frameTimeouts : (t.link l).counts.frameTimeouts = m.counts.frameTimeouts
  checkErrors : (t.link l).counts.checkErrors = m.counts.checkErrors
  disarmed : bad ∨ lost = true → (t.link l).errorArmed = false
  raised : bad ∨ lost = true → m.errorArmed = true →
    ∃ d : Int, { cause := .linkError, detail := d } ∈ (t.att l).pending ∧ (d = 1 ∧ bad ∨ d = 2 ∧ lost = true)
  silent : bad ∨ lost = true → m.errorArmed = false → t.att l = s.att l

theorem countEntry_counted (l : Link) (e : Entry) (s : State) :
    EntryCounted l (e.badCharacter = true) e.overrun (s.link l) s (countEntry l e s) := by
  cases flagged : e.flagged with
  | false =>
    obtain ⟨char, kept⟩ := Bool.or_eq_false_iff.mp flagged
    have idle : ¬(e.badCharacter = true ∨ e.overrun = true) := by simp [char, kept]
    rw [countEntry_of_plain flagged]
    exact ⟨rfl, fun _ _ => ⟨rfl, rfl⟩, rfl, fun _ => ⟨rfl, rfl, rfl⟩, fun bad => absurd (.inl bad) idle,
      fun lost => absurd (.inr lost) idle, rfl, rfl, fun h => absurd h idle, fun h => absurd h idle, fun h => absurd h idle⟩
  | true =>
    obtain ⟨code, n, named, counted⟩ := countEntry_of_flagged (l := l) (s := s) flagged
    have link : (countEntry l e s).link l = { s.link l with
        counts := (s.link l).counts.incEach e.badCharacter e.overrun, errorArmed := false } := by
      rw [counted, raiseArmed_link, setLink_link_same]
    refine ⟨?only, fun k other => ?others, ?link, fun ⟨char, kept⟩ => ?plain, fun bad => ?bad, fun lost => ?lost, ?timeouts, ?checks,
      fun _ => ?disarmed, fun _ armed => ⟨code, ?raised, named⟩, fun _ off => ?silent⟩
    case only => rw [counted, raiseArmed_frame]; rfl
    case others =>
      rw [counted, raiseArmed_link, raiseArmed_att_other other, setLink_link_other _ _ other]
      exact ⟨rfl, rfl⟩
    case plain => simp [Entry.flagged, char, kept] at flagged
    case raised =>
      rw [counted, raiseArmed, if_pos armed, raiseOn_att_same]
      exact mem_putCause ..
    case silent =>
      rw [counted, raiseArmed, if_neg (by simp [off])]
      rfl
    case bad => rw [link]; exact if_pos bad
    case lost => rw [link]; exact if_pos lost
    case link => rw [link]
    case disarmed => rw [link]
    case timeouts => rw [link]; rfl
    case checks => rw [link]; rfl

/-! ## Characters and gaps at the receive FIFO (R182, R183, R185, R186) -/

theorem badCharacter_iff : e.badCharacter = true ↔ e.parity = true ∨ e.framing = true ∨ e.brk = true := by
  simp [Entry.badCharacter, or_assoc]

theorem betweenFrames_iff (m : MasterLink) (data : Byte) (parityBit stopBit : Bool) (lost : Bool) (stamp : Option Position) :
    betweenFrames m data parityBit stopBit = true ↔
      m.phase = .between ∧ ¬(entryOf data parityBit stopBit lost stamp).badCharacter = true ∧
        (m.port.rx.lost = false ∨ 128 ≤ m.port.rx.fifo.length) := by
  have same : (entryOf data parityBit stopBit (m.port.rx.lost && !m.port.rx.full) none).badCharacter =
    (entryOf data parityBit stopBit lost stamp).badCharacter := rfl
  rw [betweenFrames, Entry.flagged, same, Receiver.full]
  cases m.port.rx.lost <;> simp [entryOf, fifoSize]
  exact fun _ _ => decide_eq_true_iff

/-- The phase after a character, by the table of R185. -/
theorem nextPhase_of_good {ph : RxPhase} {c : Byte} (good : e.flagged = false) (char : e.char = some c) :
    nextPhase ph e = match ph with
      | .between => if c = 0x02 then .kind else .between
      | .kind => .length
      | .length => if c = 0 then .check else if c.toNat ≤ 120 then .payload c.toNat else .between
      | .payload n => if n ≤ 1 then .check else .payload (n - 1)
      | .check => .between := by
  cases ph with
  | length =>
    by_cases empty : c = 0
    · simp [nextPhase, good, char, empty]
    · by_cases long : 120 < c.toNat
      · simpa [nextPhase, good, char, long, not_le.mpr long] using empty
      · simp [nextPhase, good, char, long, not_lt.mp long]
  | _ => simp [nextPhase, good, char]

theorem nextPhase_of_gap (ph : RxPhase) (lost : Bool) (stamp : Option Position) : nextPhase ph (gapOf lost stamp) = .between := by
  cases lost <;> cases ph <;> rfl

theorem storeEntry_of_full (full : 128 ≤ (s.link l).port.rx.fifo.length) (e : Bool → Entry) (watch : Option Moment) :
    storeEntry l e watch s = s.setLink l { (s.link l).setRx { (s.link l).port.rx with lost := true, silence := none } with
      phase := .between } := if_pos (decide_eq_true full)

/-- The link with an entry stored and its phase moved on, before the entry is counted. -/
def MasterLink.stored (m : MasterLink) (e : Entry) (watch : Option Moment) : MasterLink :=
  { m.setRx (m.port.rx.store (fun _ => e) watch) with phase := nextPhase m.phase e }

/-- What the storing of an entry leaves: the link with the entry stored, counted. -/
theorem storeEntry_of_room (room : (s.link l).port.rx.fifo.length < 128) (e : Bool → Entry) (watch : Option Moment) :
    storeEntry l e watch s = countEntry l (e (s.link l).port.rx.lost)
      (s.setLink l ((s.link l).stored (e (s.link l).port.rx.lost) watch)) :=
  if_neg (by rw [Receiver.full_iff]; exact not_le.mpr room)

theorem storeEntry_counted (room : (s.link l).port.rx.fifo.length < 128) (e : Bool → Entry) (watch : Option Moment) :
    EntryCounted l ((e (s.link l).port.rx.lost).badCharacter = true) (e (s.link l).port.rx.lost).overrun
      ((s.link l).stored (e (s.link l).port.rx.lost) watch) s (storeEntry l e watch s) := by
  have h := countEntry_counted l (e (s.link l).port.rx.lost) (s.setLink l ((s.link l).stored (e (s.link l).port.rx.lost) watch))
  rw [setLink_link_same] at h
  rw [storeEntry_of_room room]
  exact { h with
    only := h.only
    others := fun k other => ⟨(h.others k other).1.trans (setLink_link_other _ _ other), (h.others k other).2⟩ }

theorem exec_characterReceived_of_stored {data : Byte} {parityBit stopBit : Bool} (released : s.resetHeld = false)
    (high : (s.link l).port.rx.breakLow = false)
    (kept : ¬(betweenFrames (s.link l) data parityBit stopBit = true ∧ (data = 0x11 ∨ data = 0x13))) :
    exec (.characterReceived l data parityBit stopBit) s = .next
      (storeEntry l (fun lost => entryOf data parityBit stopBit lost (stampFor l s.tracking.position)) (some s.now) s) := by
  refine (next_unlessReset released _).trans (congrArg Host.Outcome.next ?_)
  rw [receiveCharacter, if_neg (by simp [high]), if_neg, if_neg]
  · intro h
    obtain ⟨plain, x⟩ := Bool.and_eq_true_iff.mp h
    exact kept ⟨plain, .inl (beq_iff_eq.mp x)⟩
  · intro h
    obtain ⟨plain, x⟩ := Bool.and_eq_true_iff.mp h
    exact kept ⟨plain, .inr (beq_iff_eq.mp x)⟩

theorem exec_characterReceived_of_flow {data : Byte} {parityBit stopBit : Bool} (released : s.resetHeld = false)
    (high : (s.link l).port.rx.breakLow = false) (plain : betweenFrames (s.link l) data parityBit stopBit = true)
    (flow : data = 0x11 ∨ data = 0x13) :
    exec (.characterReceived l data parityBit stopBit) s = .next (s.setLink l
      { (s.link l).setRx { (s.link l).port.rx with silence := none } with
        pause := if data = 0x13 then some (s.now + ms 2000) else none }) := by
  refine (next_unlessReset released _).trans (congrArg Host.Outcome.next ?_)
  rw [receiveCharacter, if_neg (by simp [high]), plain]
  rcases flow with rfl | rfl <;> rfl

theorem exec_gapEntry_of_silent {since : Moment} (released : s.resetHeld = false) (silence : (s.link l).port.rx.silence = some since)
    (long : 67 * 20000000 < 2 * linkSpeed (s.link l).port.straps * (s.now - since)) :
    exec (.gapEntry l) s = .next (storeEntry l (fun lost => gapOf lost (stampFor l s.tracking.position)) none s) := by
  refine (next_unlessReset released _).trans (congrArg Host.Outcome.next (if_pos ?_))
  rw [Port.silent, silence]
  exact decide_eq_true long

end

/-- Settles O6: between frames, at a full FIFO, and stored, where the flags of the entry name the counts. -/
theorem linkReception : Obligations.LinkReception := by
  intro l data parityBit stopBit s released
  have bad := badCharacter_iff (e := entryOf data parityBit stopBit (s.link l).port.rx.lost (stampFor l s.tracking.position))
  have plain := betweenFrames_iff (s.link l) data parityBit stopBit (s.link l).port.rx.lost (stampFor l s.tracking.position)
  rw [bad] at plain
  refine ⟨fun low => ?_, fun high flow => ?_, fun high kept full => ?_, fun high kept room => ?_,
    fun since silence long room => ?_, fun since silence long full => ?_⟩
  · exact (next_unlessReset released _).trans (congrArg Host.Outcome.next (if_pos low))
  · exact exec_characterReceived_of_flow released high (plain.mpr flow.1) flow.2
  · exact (exec_characterReceived_of_stored released high (kept ∘ fun h => ⟨plain.mp h.1, h.2⟩)).trans
      (congrArg Host.Outcome.next (storeEntry_of_full full ..))
  · obtain ⟨only, others, link, same, characters, overruns, timeouts, checks, disarmed, raised, silent⟩ :=
      storeEntry_counted room (fun lost => entryOf data parityBit stopBit lost (stampFor l s.tracking.position)) (some s.now)
    rw [bad] at same characters disarmed raised silent
    refine ⟨_, exec_characterReceived_of_stored released high (kept ∘ fun h => ⟨plain.mp h.1, h.2⟩), ⟨only, others⟩, ?rx,
      ?phase, ?pause, ?assembler, ?request, ?held, ?tx, same, characters, overruns, timeouts, checks,
      fun either => ⟨disarmed either, raised either, silent either⟩⟩
    case rx => rw [link]; simp [MasterLink.stored, MasterLink.setRx, Receiver.store, high, stampFor]
    case phase =>
      rw [link]
      have flags := Bool.or_eq_true_iff.trans (or_congr_left (c := (s.link l).port.rx.lost = true) bad)
      cases flagged : (entryOf data parityBit stopBit (s.link l).port.rx.lost (stampFor l s.tracking.position)).flagged with
      | true => exact (if_pos flagged).trans (if_pos (flags.mp flagged)).symm
      | false =>
        exact (nextPhase_of_good flagged rfl).trans (if_neg (mt flags.mpr (Bool.eq_false_iff.mp flagged))).symm
    all_goals rw [link]; rfl
  · obtain ⟨only, others, link, same, characters, overruns, timeouts, checks, disarmed, raised, silent⟩ :=
      storeEntry_counted room (fun lost => gapOf lost (stampFor l s.tracking.position)) none
    have good : (gapOf (s.link l).port.rx.lost (stampFor l s.tracking.position)).badCharacter = true ↔ False := by
      simp [gapOf, Entry.badCharacter]
    rw [good] at same characters disarmed raised silent
    refine ⟨_, exec_gapEntry_of_silent released silence long, ⟨only, others⟩, ?gapFifo, ?gapLost, ?gapSilence, ?gapPhase,
      ?gapAssembler, same, characters, overruns, timeouts, checks, fun either => ⟨disarmed either, raised either, silent either⟩⟩
    case gapPhase => rw [link]; exact nextPhase_of_gap (s.link l).phase _ _
    all_goals rw [link]; rfl
  · exact (exec_gapEntry_of_silent released silence long).trans (congrArg Host.Outcome.next (storeEntry_of_full full ..))

end Sys2Proof.Machine

/-! The reader link and the code unit: entries stored, entries taken, and messages matched (O38, O39, O41). -/

namespace Sys2Proof.Machine

/-! ## The flags of a character (R182) -/

theorem foldl_bne_eq_countP {α : Type} (f : α → Bool) (is : List α) (acc : Bool) :
    is.foldl (fun acc i => acc != f i) acc = (acc != decide (is.countP f % 2 = 1)) := by
  induction is generalizing acc with
  | nil => cases acc <;> rfl
  | cons i is ih =>
    rw [List.foldl_cons, ih]
    rcases Nat.mod_two_eq_zero_or_one (is.countP f) with even | odd
    · cases found : f i <;> cases acc <;> simp [found, Nat.add_mod, even]
    · cases found : f i <;> cases acc <;> simp [found, Nat.add_mod, odd]

theorem oddOnes_eq (data : Byte) : oddOnes data = decide ((List.range 8).countP (fun i => data.getLsbD i) % 2 = 1) :=
  (foldl_bne_eq_countP (fun i => data.getLsbD i) (List.range 8) false).trans (Bool.false_bne _)

theorem parityFlag_iff (data : Byte) (parityBit : Bool) : parityFlag data parityBit = true ↔
    ((List.range 8).countP (fun i => data.getLsbD i) + (if parityBit then 1 else 0)) % 2 = 1 := by
  rw [parityFlag, parityBitOf, oddOnes_eq]
  rcases Nat.mod_two_eq_zero_or_one ((List.range 8).countP (fun i => data.getLsbD i)) with even | odd
  · cases parityBit <;> simp [Nat.add_mod, even]
  · cases parityBit <;> simp [Nat.add_mod, odd]

theorem breakFlag_iff (data : Byte) (parityBit stopBit : Bool) :
    breakFlag data parityBit stopBit = true ↔ data = 0 ∧ parityBit = false ∧ stopBit = false := by
  simp [breakFlag, and_assoc]

theorem framingFlag_iff (data : Byte) (parityBit stopBit : Bool) :
    framingFlag data parityBit stopBit = true ↔ stopBit = false ∧ data ≠ 0 := by
  simp [framingFlag, breakFlag]
  tauto

/-! ## Entries stored (R63, R64, R70) -/

section
variable {s : State}

theorem afterStore_of_level (level : s.reader.rx.fifo.length = 96 ∧ s.code.flow = .opened) : afterStore s = { s with
    reader := { s.reader with tx := { s.reader.tx with fifo := s.reader.tx.fifo ++ [0x13] } }
    code := { s.code with flow := .held } } := if_pos level

theorem afterStore_of_other (other : ¬(s.reader.rx.fifo.length = 96 ∧ s.code.flow = .opened)) : afterStore s = s := if_neg other

theorem storeReader_of_full (full : 128 ≤ s.reader.rx.fifo.length) (e : Bool → Entry) (watch : Option Moment) :
    storeReader e watch s = { s with reader := { s.reader with rx := { s.reader.rx with lost := true, silence := none } } } :=
  if_pos (s.reader.rx.full_iff.mpr full)

theorem storeReader_of_room (room : s.reader.rx.fifo.length < 128) (e : Bool → Entry) (watch : Option Moment) :
    storeReader e watch s = afterStore (s.setReader { s.reader with rx := s.reader.rx.store e watch }) :=
  if_neg (mt s.reader.rx.full_iff.mp (not_le.mpr room))

/-- What the storing of an entry of the reader link leaves. -/
structure ReaderStored (e : Entry) (watch : Option Moment) (s t : State) : Prop where
  only : t = { s with reader := t.reader, code := t.code }
  fifo : t.reader.rx.fifo = s.reader.rx.fifo ++ [e]
  lost : t.reader.rx.lost = false
  silence : t.reader.rx.silence = watch
  xoff : s.reader.rx.fifo.length = 95 ∧ s.code.flow = .opened →
    t.reader.tx.fifo = s.reader.tx.fifo ++ [0x13] ∧ t.code = { s.code with flow := .held }
  plain : ¬(s.reader.rx.fifo.length = 95 ∧ s.code.flow = .opened) → t.reader.tx = s.reader.tx ∧ t.code = s.code

theorem storeReader_stored (room : s.reader.rx.fifo.length < 128) (e : Bool → Entry) (watch : Option Moment) :
    ReaderStored (e s.reader.rx.lost) watch s (storeReader e watch s) := by
  have level : (s.reader.rx.fifo ++ [e s.reader.rx.lost]).length = 96 ↔ s.reader.rx.fifo.length = 95 := by simp
  rw [storeReader_of_room room]
  by_cases xoff : s.reader.rx.fifo.length = 95 ∧ s.code.flow = .opened
  · rw [afterStore_of_level (s := s.setReader { s.reader with rx := s.reader.rx.store e watch }) ⟨level.mpr xoff.1, xoff.2⟩]
    exact ⟨rfl, rfl, rfl, rfl, fun _ => ⟨rfl, rfl⟩, fun h => absurd xoff h⟩
  · rw [afterStore_of_other (s := s.setReader { s.reader with rx := s.reader.rx.store e watch }) fun h => xoff ⟨level.mp h.1, h.2⟩]
    exact ⟨rfl, rfl, rfl, rfl, fun h => absurd h xoff, fun _ => ⟨rfl, rfl⟩⟩

theorem isEnd_iff (e : Entry) : e.isEnd = true ↔
    e.char = some 0x0D ∧ e.parity = false ∧ e.framing = false ∧ e.brk = false ∧ e.overrun = false := by
  simp [Entry.isEnd, Entry.flagged, Entry.badCharacter, and_assoc]

theorem exec_readerCharacterReceived_of_high (released : s.resetHeld = false) (high : s.reader.rx.breakLow = false) (data : Byte)
    (parityBit stopBit : Bool) :
    exec (.readerCharacterReceived data parityBit stopBit) s = .next (storeReader
      (fun lost => entryOf data parityBit stopBit lost (some s.tracking.position))
      (if (entryOf data parityBit stopBit s.reader.rx.lost (some s.tracking.position)).isEnd then none else some s.now) s) :=
  (next_unlessReset released _).trans (congrArg Host.Outcome.next (if_neg (Bool.eq_false_iff.mp high)))

theorem exec_readerGapEntry_of_silent {since : Moment} (released : s.resetHeld = false) (silence : s.reader.rx.silence = some since)
    (long : 67 * 20000000 < 2 * linkSpeed s.reader.straps * (s.now - since)) :
    exec .readerGapEntry s = .next (storeReader (fun lost => gapOf lost (some s.tracking.position)) none s) := by
  refine (next_unlessReset released _).trans (congrArg Host.Outcome.next (if_pos ?_))
  rw [Port.silent, silence]
  exact decide_eq_true long

end

/-- Settles O38: a character or a gap is stored or lost, by the level of the FIFO. -/
theorem readerEntryStored : Obligations.ReaderEntryStored := by
  refine ⟨fun data parityBit stopBit lost x => ⟨rfl, rfl, rfl, parityFlag_iff .., framingFlag_iff .., breakFlag_iff ..⟩,
    fun data parityBit stopBit s released => ⟨fun high room => ?_, fun high full => ?_, fun since silence long room => ?_,
      fun since silence long full => ?_⟩⟩
  · obtain ⟨only, fifo, lost, silence, xoff, plain⟩ := storeReader_stored room
      (fun lost => entryOf data parityBit stopBit lost (some s.tracking.position))
      (if (entryOf data parityBit stopBit s.reader.rx.lost (some s.tracking.position)).isEnd then none else some s.now)
    refine ⟨_, exec_readerCharacterReceived_of_high released high .., only, ⟨fifo, lost, xoff, plain⟩, silence.trans ?_⟩
    exact if_congr ((isEnd_iff _).trans (and_congr_left' Option.some_inj)) rfl rfl
  · exact (exec_readerCharacterReceived_of_high released high ..).trans (congrArg Host.Outcome.next (storeReader_of_full full ..))
  · obtain ⟨only, fifo, lost, watch, xoff, plain⟩ := storeReader_stored room (fun lost => gapOf lost (some s.tracking.position)) none
    exact ⟨_, exec_readerGapEntry_of_silent released silence long, only, watch, fifo, lost, xoff, plain⟩
  · exact (exec_readerGapEntry_of_silent released silence long).trans (congrArg Host.Outcome.next (storeReader_of_full full ..))

/-! ## Entries taken (R65 to R69, R71) -/

section
variable {s : State} {e : Entry} {rest : List Entry} {c : Byte}

theorem afterTake_of_level (level : s.reader.rx.fifo.length = 32 ∧ s.code.flow = .held) : afterTake s = { s with
    reader := { s.reader with tx := { s.reader.tx with fifo := s.reader.tx.fifo ++ [0x11] } }
    code := { s.code with flow := .opened } } := if_pos level

theorem afterTake_of_other (other : ¬(s.reader.rx.fifo.length = 32 ∧ s.code.flow = .held)) : afterTake s = s := if_neg other

/-- An error-free character. -/
def Entry.clean (e : Entry) (c : Byte) : Prop :=
  e.char = some c ∧ e.parity = false ∧ e.framing = false ∧ e.brk = false ∧ e.overrun = false

theorem Entry.clean_iff : e.clean c ↔ e.char = some c ∧ e.flagged = false := by
  simp [Entry.clean, Entry.flagged, Entry.badCharacter, and_assoc]

theorem entryKind_of_gap (gap : e.char = none) : e.entryKind = .gap := by rw [Entry.entryKind, gap]

theorem entryKind_of_flagged (char : e.char ≠ none) (unclean : ¬∃ c, e.clean c) : e.entryKind = .flagged := by
  obtain ⟨c, char⟩ := Option.ne_none_iff_exists'.mp char
  have flagged : e.flagged = true := Bool.not_eq_false _ ▸ fun good => unclean ⟨c, Entry.clean_iff.mpr ⟨char, good⟩⟩
  rw [Entry.entryKind, char]
  exact if_pos flagged

theorem entryKind_of_unclean (unclean : ¬∃ c, e.clean c) : e.entryKind = .gap ∨ e.entryKind = .flagged := by
  by_cases gap : e.char = none
  · exact .inl (entryKind_of_gap gap)
  · exact .inr (entryKind_of_flagged gap unclean)

theorem entryKind_of_clean (clean : e.clean c) :
    e.entryKind = if c = 0x0D then .ending else if printable c then .printable c else .other := by
  obtain ⟨char, good⟩ := Entry.clean_iff.mp clean
  rw [Entry.entryKind, char]
  exact if_neg (by simp [good])

theorem entryKind_of_ending (clean : e.clean 0x0D) : e.entryKind = .ending := entryKind_of_clean clean

theorem entryKind_of_text (clean : e.clean c) (text : 0x20 ≤ c.toNat ∧ c.toNat ≤ 0x7E) : e.entryKind = .printable c := by
  have other : c ≠ 0x0D := by rintro rfl; exact absurd text.1 (by decide)
  rw [entryKind_of_clean clean, if_neg other]
  exact if_pos (decide_eq_true text)

theorem entryKind_of_other (clean : e.clean c) (text : ¬(0x20 ≤ c.toNat ∧ c.toNat ≤ 0x7E)) (other : c ≠ 0x0D) :
    e.entryKind = .other := by
  rw [entryKind_of_clean clean, if_neg other, if_neg (by simpa [printable] using text)]

theorem clean_of_ending (ending : e.entryKind = .ending) : e.clean 0x0D := by
  by_cases clean : ∃ c, e.clean c
  · obtain ⟨c, clean⟩ := clean
    rw [entryKind_of_clean clean] at ending
    split at ending
    · next same => exact same ▸ clean
    · split at ending <;> cases ending
  · rcases entryKind_of_unclean clean with kind | kind <;> cases kind.symm.trans ending

theorem assemble_idle_of_nonText (clean : e.clean c) (text : ¬(0x20 ≤ c.toNat ∧ c.toNat ≤ 0x7E)) :
    assemble .idle e.entryKind = (.idle, none) := by
  by_cases ending : c = 0x0D
  · rw [entryKind_of_ending (ending ▸ clean)]; rfl
  · rw [entryKind_of_other clean text ending]; rfl

theorem assemble_discard_of_other (going : e.entryKind ≠ .ending) : assemble .discard e.entryKind = (.discard, none) := by
  cases kind : e.entryKind with
  | ending => exact absurd kind going
  | _ => rfl

theorem exec_readerEntryTaken_of_entry (released : s.resetHeld = false) (none : s.code.message = none)
    (fifo : s.reader.rx.fifo = e :: rest) : exec .readerEntryTaken s = .next (afterTake
      ((s.setReader { s.reader with rx := { s.reader.rx with fifo := rest } }).setCode (takeEntry e s.code))) := by
  refine (next_unlessReset released _).trans ?_
  rw [readerTake, none, fifo]

/-- What the taking of an entry of the reader link leaves: the assembler's next state and the message it completes. -/
structure ReaderTaken (a : MessageAssembler) (m : Option Message) (rest : List Entry) (s t : State) : Prop where
  only : t = { s with reader := t.reader, code := t.code }
  rx : t.reader.rx = { s.reader.rx with fifo := rest }
  assembler : t.code.assembler = a
  message : t.code.message = m
  stray : t.code.stray = s.code.stray
  xon : rest.length = 32 ∧ s.code.flow = .held → t.reader.tx.fifo = s.reader.tx.fifo ++ [0x11] ∧ t.code.flow = .opened
  plain : ¬(rest.length = 32 ∧ s.code.flow = .held) → t.reader.tx = s.reader.tx ∧ t.code.flow = s.code.flow

theorem afterTake_taken (c : CodeUnit) (flow : c.flow = s.code.flow) (stray : c.stray = s.code.stray) :
    ReaderTaken c.assembler c.message rest s
      (afterTake ((s.setReader { s.reader with rx := { s.reader.rx with fifo := rest } }).setCode c)) := by
  by_cases level : rest.length = 32 ∧ s.code.flow = .held
  · rw [afterTake_of_level (s := (s.setReader { s.reader with rx := { s.reader.rx with fifo := rest } }).setCode c)
      ⟨level.1, flow.trans level.2⟩]
    exact ⟨rfl, rfl, rfl, rfl, stray, fun _ => ⟨rfl, rfl⟩, fun h => absurd level h⟩
  · rw [afterTake_of_other (s := (s.setReader { s.reader with rx := { s.reader.rx with fifo := rest } }).setCode c)
      fun h => level ⟨h.1, flow.symm.trans h.2⟩]
    exact ⟨rfl, rfl, rfl, rfl, stray, fun h => absurd h level, fun _ => ⟨rfl, flow⟩⟩

/-- The assembler's act on an entry decides what the taking of the entry does. -/
theorem readerTaken_of_assemble {a : MessageAssembler} {m : Option (Option (List Byte))} (released : s.resetHeld = false)
    (none : s.code.message = none) (fifo : s.reader.rx.fifo = e :: rest) (acts : assemble s.code.assembler e.entryKind = (a, m)) :
    ∃ t, exec .readerEntryTaken s = .next t ∧
      ReaderTaken a (m.map fun text => { text := text, stamp := e.stamp.getD 0 }) rest s t := by
  have taken : takeEntry e s.code = { s.code with
      assembler := a, message := m.map fun text => { text := text, stamp := e.stamp.getD 0 } } := by
    rw [takeEntry, acts, none]
    cases m <;> rfl
  refine ⟨_, exec_readerEntryTaken_of_entry released none fifo, ?_⟩
  rw [taken]
  exact afterTake_taken { s.code with assembler := a, message := m.map _ } rfl rfl

end

/-- Settles O39: by the kind of the entry, for each state of the assembler. -/
theorem readerEntryTaken : Obligations.ReaderEntryTaken := by
  intro e rest s released waits fifo
  have goes {b a : MessageAssembler} (m : Option (Option (List Byte))) {k : EntryKind} (state : s.code.assembler = b)
      (kind : e.entryKind = k) (acts : assemble b k = (a, m)) : ∃ t, exec .readerEntryTaken s = .next t ∧
        t = { s with reader := t.reader, code := t.code } ∧ t.reader.rx = { s.reader.rx with fifo := rest } ∧
        t.code.assembler = a ∧ t.code.message = (m.map fun text => { text := text, stamp := e.stamp.getD 0 }) ∧
        t.code.stray = s.code.stray ∧
        (rest.length = 32 ∧ s.code.flow = .held → t.reader.tx.fifo = s.reader.tx.fifo ++ [0x11] ∧ t.code.flow = .opened) ∧
        (¬(rest.length = 32 ∧ s.code.flow = .held) → t.reader.tx = s.reader.tx ∧ t.code.flow = s.code.flow) := by
    obtain ⟨t, run, only, rx, assembler, message, stray, xon, plain⟩ :=
      readerTaken_of_assemble released waits fifo (state ▸ kind ▸ acts)
    exact ⟨t, run, only, rx, assembler, message, stray, xon, plain⟩
  refine ⟨fun idle => ⟨fun c clean text => ?_, fun c clean text => ?_, fun gap => ?_, fun char unclean => ?_⟩,
    fun m collecting => ⟨fun c clean text room => ?_, fun c clean text full => ?_, fun ending => ?_, fun c clean text other => ?_,
      fun unclean => ?_⟩, fun discard => ⟨fun ending => ?_, fun going => ?_⟩⟩
  · exact goes none idle (entryKind_of_text clean text) rfl
  · exact goes none idle rfl (assemble_idle_of_nonText clean text)
  · exact goes none idle (entryKind_of_gap gap) rfl
  · exact goes (some none) idle (entryKind_of_flagged char unclean) rfl
  · exact goes none collecting (entryKind_of_text clean text) (if_pos room)
  · exact goes (some none) collecting (entryKind_of_text clean text) (if_neg (not_lt.mpr full))
  · exact goes (some (some m)) collecting (entryKind_of_ending ending) rfl
  · exact goes (some none) collecting (entryKind_of_other clean text other) rfl
  · rcases entryKind_of_unclean unclean with kind | kind
    · exact goes (some none) collecting kind rfl
    · exact goes (some none) collecting kind rfl
  · exact goes none discard (entryKind_of_ending ending) rfl
  · exact goes none discard rfl (assemble_discard_of_other (mt clean_of_ending going))

/-! ## Messages matched (R73 to R77, R83) -/

section
variable {α : Type} {p : α → Bool} {ahead rest : List α} {x : α}

theorem find_of_ahead (none : ∀ a ∈ ahead, p a = false) (found : p x = true) : (ahead ++ x :: rest).find? p = some x := by
  rw [List.find?_append, List.find?_eq_none.mpr fun a mem => Bool.eq_false_iff.mp (none a mem), List.find?_cons_of_pos found]
  rfl

theorem mapFirst_of_ahead (f : α → α) (none : ∀ a ∈ ahead, p a = false) (found : p x = true) :
    mapFirst p f (ahead ++ x :: rest) = ahead ++ f x :: rest := by
  induction ahead with
  | nil => exact if_pos found
  | cons a ahead ih =>
    obtain ⟨first, others⟩ := List.forall_mem_cons.mp none
    rw [List.cons_append, mapFirst, if_neg (Bool.eq_false_iff.mp first), ih others, List.cons_append]

end

theorem markUnread_of_ahead {ahead : List CanRecord} (none : ∀ a ∈ ahead, a.stage ≠ .weighed) (st : Store) (late : CanRecord → Bool)
    (rest : List CanRecord) : markUnread st late (ahead ++ rest) = ahead ++ markUnread st late rest := by
  induction ahead with
  | nil => rfl
  | cons a ahead ih =>
    obtain ⟨first, others⟩ := List.forall_mem_cons.mp none
    rw [List.cons_append, markUnread, if_neg first, ih others, List.cons_append]

/-- A record read with a code status: its code reason joins by its own recipe (R83). -/
theorem readAs_eq (st : Store) (code : Option (List Byte)) (cs : CodeStatus) (c : CanRecord) : c.readAs st code cs =
    { c with
      code := code, codeStatus := cs, stage := .read
      reasons := if cs = .mismatch then addReason .codeMismatch c.reasons
        else if ((st.recipeOf c.generation).map Recipe.codeRequired).getD false = true ∧ (cs = .noRead ∨ cs = .garbled) then
          addReason .codeNoRead c.reasons
        else c.reasons } := by
  cases required : ((st.recipeOf c.generation).map Recipe.codeRequired).getD false <;>
    cases cs <;> simp [CanRecord.readAs, codeReasons, CanRecord.withReasons, required]

section
variable {s : State} {L : Layout} {m : Message} {ahead rest : List CanRecord} {c : CanRecord}

theorem exec_messageMatch_of_message (released : s.resetHeld = false) (message : s.code.message = some m) :
    exec .messageMatch s = .next (matchMessage m (s.setCode { s.code with message := none })) := by
  refine (next_unlessReset released _).trans ?_
  rw [handleMessage, message]

/-- A message judged after the overdue records have been set to READ is judged the same. -/
theorem matchMessage_marked (layout : s.store.layout = some L) (m : Message) :
    matchMessage m (s.setQueue (markUnread s.store (pastReader L m.stamp) s.tracking.queue)) = matchMessage m s := by
  have marked : (s.setQueue (markUnread s.store (pastReader L m.stamp) s.tracking.queue)).store.layout = some L := layout
  unfold matchMessage
  rw [marked, layout]
  simp only [setQueue_store, setQueue_tracking, markUnread_idem]
  rfl

theorem matchMessage_of_none (layout : s.store.layout = some L)
    (unmarked : markUnread s.store (pastReader L m.stamp) s.tracking.queue = s.tracking.queue)
    (none : oldestWeighed s.tracking.queue = none) : matchMessage m s = strayMessage s := by
  rw [matchMessage, layout]
  dsimp only
  rw [unmarked]
  dsimp only [setQueue_tracking]
  rw [none]
  rfl

theorem matchMessage_of_oldest (layout : s.store.layout = some L)
    (unmarked : markUnread s.store (pastReader L m.stamp) s.tracking.queue = s.tracking.queue)
    (oldest : oldestWeighed s.tracking.queue = some c) : matchMessage m s =
      if (L.readerDistance : Int) - L.readerWindow ≤ c.elapsed m.stamp then
        s.setQueue (mapFirst (fun q => q.stage == .weighed) (matchRecord s.store m.text) s.tracking.queue)
      else strayMessage s := by
  rw [matchMessage, layout]
  dsimp only
  rw [unmarked]
  dsimp only [setQueue_tracking]
  rw [oldest]
  rfl

theorem exec_messageMatch_of_none (released : s.resetHeld = false) (layout : s.store.layout = some L)
    (message : s.code.message = some m) (unread : ∀ c ∈ s.tracking.queue, c.stage ≠ .weighed) :
    exec .messageMatch s = .next { s with
      code := { s.code with message := none, stray := min 65535 (s.code.stray + 1) } } := by
  have unmarked := markUnread_of_ahead unread s.store (pastReader L m.stamp) []
  have unfound : oldestWeighed s.tracking.queue = Option.none :=
    List.find?_eq_none.mpr fun c mem => by simpa using unread c mem
  simp only [List.append_nil, markUnread] at unmarked
  rw [exec_messageMatch_of_message released message,
    matchMessage_of_none (s := s.setCode { s.code with message := none }) layout unmarked unfound,
    strayMessage, satInc_eq_min]
  rfl

/-- Where the oldest WEIGHED record is not overdue, the message is its own or is stray. -/
theorem exec_messageMatch_of_oldest (released : s.resetHeld = false) (layout : s.store.layout = some L)
    (message : s.code.message = some m) (queue : s.tracking.queue = ahead ++ c :: rest) (unread : ∀ a ∈ ahead, a.stage ≠ .weighed)
    (weighed : c.stage = .weighed) (due : c.elapsed m.stamp ≤ (L.readerDistance : Int) + L.readerWindow) :
    exec .messageMatch s = .next (if (L.readerDistance : Int) - L.readerWindow ≤ c.elapsed m.stamp then
      { s with
        code := { s.code with message := none }
        tracking := { s.tracking with queue := ahead ++ matchRecord s.store m.text c :: rest } }
      else { s with code := { s.code with message := none, stray := min 65535 (s.code.stray + 1) } }) := by
  have passed : ∀ a ∈ ahead, (a.stage == .weighed) = false := fun a mem => by simpa using unread a mem
  have found : (c.stage == .weighed) = true := by simp [weighed]
  have unmarked : markUnread s.store (pastReader L m.stamp) s.tracking.queue = s.tracking.queue := by
    rw [queue, markUnread_of_ahead unread, markUnread, if_pos weighed, if_neg]
    simpa [pastReader] using due
  have oldest : oldestWeighed s.tracking.queue = some c := by rw [queue]; exact find_of_ahead passed found
  rw [exec_messageMatch_of_message released message,
    matchMessage_of_oldest (s := s.setCode { s.code with message := none }) layout unmarked oldest]
  refine congrArg Host.Outcome.next (if_congr .rfl ?_ ?_)
  · simp only [setCode_tracking, queue, mapFirst_of_ahead _ passed found]
    rfl
  · rw [strayMessage, satInc_eq_min]
    rfl

end

theorem codeOf_eq (pattern text : Option (List Byte)) : codeOf pattern text =
    match text with
    | none => (none, .garbled)
    | some t => if t = [0x3F] then (none, .noRead) else
      (some t, match pattern with
        | none => .notChecked
        | some q => if codeMatches q t then .matched else .mismatch) := by
  cases text with
  | none => rfl
  | some t =>
    cases pattern with
    | none => rfl
    | some q => rfl

/-- The code and the code status that a record reads off a message (R76, R77). -/
theorem matchRecord_eq (st : Store) (text : Option (List Byte)) (c : CanRecord) {got : Option (List Byte) × CodeStatus}
    (read : codeOf ((st.recipeOf c.generation).bind Recipe.codePattern) text = got) : matchRecord st text c =
    { c with
      code := got.1, codeStatus := got.2, stage := .read
      reasons := if got.2 = .mismatch then addReason .codeMismatch c.reasons
        else if ((st.recipeOf c.generation).map Recipe.codeRequired).getD false = true ∧ (got.2 = .noRead ∨ got.2 = .garbled) then
          addReason .codeNoRead c.reasons
        else c.reasons } := by
  rw [matchRecord, patternOf, read, readAs_eq]

/-- Settles O41: stray or matched by the oldest WEIGHED record that the overdue ones leave. -/
theorem messageIsMatched : Obligations.MessageIsMatched := by
  intro L m s released layout message
  refine ⟨?_, exec_messageMatch_of_none released layout message, fun ahead c rest queue unread weighed =>
    ⟨fun short => ?_, fun inside due => ?_⟩⟩
  · have marked := markUnread_takeWhile s.store (pastReader L m.stamp) s.tracking.queue
    simp only [pastReader, decide_eq_true_iff, readAs_noRead] at marked
    rw [← marked, exec_messageMatch_of_message released message]
    exact ((exec_messageMatch_of_message (s := s.setQueue (markUnread s.store (pastReader L m.stamp) s.tracking.queue))
      released message).trans (congrArg Host.Outcome.next
        (matchMessage_marked (s := s.setCode { s.code with message := none }) layout m))).symm
  · have due : c.elapsed m.stamp ≤ (L.readerDistance : Int) + L.readerWindow := by omega
    exact (exec_messageMatch_of_oldest released layout message queue unread weighed due).trans
      (congrArg Host.Outcome.next (if_neg (not_le.mpr short)))
  · exact (exec_messageMatch_of_oldest released layout message queue unread weighed due).trans
      (congrArg Host.Outcome.next ((if_pos inside).trans (congrArg (fun r : CanRecord => { s with
        code := { s.code with message := none }
        tracking := { s.tracking with queue := ahead ++ r :: rest } }) (matchRecord_eq s.store m.text c (codeOf_eq ..)))))

end Sys2Proof.Machine

/-! The weigh unit: conversions, zero tracking and captures (O33, O34, O35, O36). -/

namespace Sys2Proof.Machine

/-! ## A conversion completes (R39 to R43, R45) -/

section
variable {s : State} {w : Weighing} {f z x : Nat}

/-- The weigh unit after a valid conversion of frequency `f`, before the platform state has its say (R41, R42). -/
def WeighUnit.converted (u : WeighUnit) (f : Nat) : WeighUnit :=
  { u with period := 0, latest := some f, cellRun := 0, cellFault := false }

/-- The frequency that a conversion completing now gives (R41). -/
def State.frequency (s : State) : Nat := (2 * (s.cal.periodSetting * 200000000) + s.weigh.period) / (2 * s.weigh.period)

theorem exec_conversionComplete_of_valid (released : s.resetHeld = false) (running : s.weigh.conversion = .running)
    (low : 200000 ≤ s.frequency) (high : s.frequency ≤ 600000) :
    exec .conversionComplete s = .next (validConversion s.frequency (s.setWeigh { s.weigh with period := 0 })) :=
  (next_unlessReset released _).trans (congrArg Host.Outcome.next (completeConversion_valid s running _ rfl low high))

theorem validConversion_of_dwell (dwell : s.weigh.platform = .dwell w) (f : Nat) :
    validConversion f (s.setWeigh { s.weigh with period := 0 }) = dwellConversion f w (s.setWeigh (s.weigh.converted f)) := by
  rw [validConversion]
  dsimp only [setWeigh_weigh]
  rw [dwell]
  rfl

theorem validConversion_of_empty (empty : s.weigh.platform = .empty) (f : Nat) :
    validConversion f (s.setWeigh { s.weigh with period := 0 }) = emptyConversion f (s.setWeigh (s.weigh.converted f)) := by
  unfold validConversion
  dsimp only [setWeigh_weigh]
  split
  · next other => cases empty.symm.trans other
  · rfl
  · next other => cases empty.symm.trans other
  · next other => cases empty.symm.trans other

theorem exec_conversionComplete_of_empty (released : s.resetHeld = false) (running : s.weigh.conversion = .running)
    (empty : s.weigh.platform = .empty) (low : 200000 ≤ s.frequency) (high : s.frequency ≤ 600000) :
    exec .conversionComplete s = .next (emptyConversion s.frequency (s.setWeigh (s.weigh.converted s.frequency))) := by
  rw [exec_conversionComplete_of_valid released running low high, validConversion_of_empty empty]

theorem validConversion_of_waitClear (waits : s.weigh.platform = .waitClear) (f : Nat) :
    validConversion f (s.setWeigh { s.weigh with period := 0 }) = waitClearConversion f (s.setWeigh (s.weigh.converted f)) := by
  unfold validConversion
  dsimp only [setWeigh_weigh]
  split
  · next other => cases waits.symm.trans other
  · next other => cases waits.symm.trans other
  · next other => cases waits.symm.trans other
  · rfl

/-- The dwell buffer keeps the newest 24 weights (R45). -/
theorem placeWeight_eq (gross : Int) {buffer : List Int} (fits : buffer.length ≤ 24) :
    placeWeight gross buffer = (buffer ++ [gross]).drop (buffer.length + 1 - 24) := by
  rw [placeWeight, dwellSize]
  split
  · next room => rw [Nat.sub_eq_zero_of_le room, List.drop_zero]
  · next full =>
    obtain ⟨first, rest, rfl⟩ := List.exists_cons_of_ne_nil (List.ne_nil_of_length_pos (by omega : 0 < buffer.length))
    rw [show (first :: rest).length + 1 - 24 = 1 by omega]
    rfl

theorem rawGross_eq (f z x : Nat) : rawGross f z x = roundAway (((f : Int) ^ 2 - (z : Int) ^ 2) * x) 4294967296 := by
  rw [rawGross, loadFigure, pow_two, pow_two]
  norm_num

/-- What a weight does to the weighing in progress: one held at a bound does not join (R43, R45). -/
theorem collect_eq (fits : w.buffer.length ≤ 24) {gross : Int} (raw : rawGross f z x = gross) :
    w.collect (grossOf f z x) (overRange f z x) =
      if 0 < w.settle then { w with settle := w.settle - 1 }
      else if gross < -20000 ∨ 250000 < gross then w
      else { w with buffer := (w.buffer ++ [gross]).drop (w.buffer.length + 1 - 24) } := by
  subst raw
  rw [Weighing.collect]
  refine if_congr .rfl rfl ?_
  rw [placeWeight_eq _ fits]
  by_cases bound : rawGross f z x < -20000 ∨ 250000 < rawGross f z x
  · rw [if_pos bound, if_pos (by simpa [overRange] using bound)]
  · rw [if_neg bound, if_neg (by simpa [overRange] using bound), grossOf, clamp_of_mem (by omega) (by omega)]

theorem freqInBand_iff (f : Nat) : freqInBand f = true ↔ 200000 ≤ f ∧ f ≤ 600000 := decide_eq_true_iff

theorem exec_conversionComplete_of_outOfBand (released : s.resetHeld = false) (running : s.weigh.conversion = .running)
    (bad : s.frequency < 200000 ∨ 600000 < s.frequency) :
    exec .conversionComplete s = .next (invalidConversion .outOfBand (s.setWeigh { s.weigh with period := 0 })) := by
  refine (next_unlessReset released _).trans (congrArg Host.Outcome.next ?_)
  have out : ¬freqInBand s.frequency = true := by rw [freqInBand_iff]; omega
  rw [completeConversion, running]
  exact if_neg out

theorem exec_conversionOverflow_of_due (released : s.resetHeld = false) (counts : s.weigh.conversion ≠ .stopped)
    (due : 65535 ≤ s.weigh.period) :
    exec .conversionOverflow s = .next (invalidConversion .overflow (s.setWeigh (dropConversion s.weigh))) :=
  (next_unlessReset released _).trans (congrArg Host.Outcome.next (if_pos (by simp [overflowDue, counts, periodTop, due])))

/-- What the eighth invalid conversion in a row does (R42, R48). -/
theorem invalidConversion_eighth (m : InvalidMark) (eighth : s.weigh.cellRun = 7) : let t := invalidConversion m s
    t.weigh = { s.weigh with cellRun := 8, cellFault := true, platform := s.weigh.platform.marked } ∧
      t.pendingOnAll .cellFault m.code ∧ t.haltedBy s .cellFault ∧ t.tracking = s.tracking ∧ t.dose = s.dose := by
  rw [invalidConversion, if_pos eighth]
  obtain ⟨pending, halted⟩ := haltReason_effects (c := .cellFault) nofun m.code
    (s.setWeigh { s.weigh with cellRun := 8, cellFault := true, platform := s.weigh.platform.marked })
  obtain ⟨a, k, frame⟩ := haltReason_frame .cellFault m.code
    (s.setWeigh { s.weigh with cellRun := 8, cellFault := true, platform := s.weigh.platform.marked })
  exact ⟨by rw [frame]; rfl, pending, halted, by rw [frame]; rfl, by rw [frame]; rfl⟩

theorem invalidConversion_other (m : InvalidMark) (other : s.weigh.cellRun ≠ 7) :
    invalidConversion m s = s.setWeigh { s.weigh with cellRun := min 255 (s.weigh.cellRun + 1) } := by
  rw [invalidConversion, if_neg other, satInc_eq_min]

end

/-- Settles O33: a valid conversion by the platform state, an invalid one by the run it finds. -/
theorem conversionsValidAndInvalid : Obligations.ConversionsValidAndInvalid := by
  refine ⟨fun s released waiting => ?_, fun w z x s released running dwell fz span fits => ?_, fun s released => ⟨fun _ => rfl,
    fun running bad => ⟨fun other => ?_, fun seventh => ?_⟩, fun counts due => ⟨fun other => ?_, fun seventh => ?_⟩⟩⟩
  · refine (next_unlessReset released _).trans ?_
    rw [startConversion, waiting]
    rfl
  · intro n f low high gross w'
    refine (exec_conversionComplete_of_valid released running low high).trans (congrArg Host.Outcome.next ?_)
    rw [validConversion_of_dwell dwell, dwellConversion]
    dsimp only [setWeigh_weigh, WeighUnit.converted]
    rw [fz, span, collect_eq fits (rawGross_eq ..)]
    rfl
  · exact (exec_conversionComplete_of_outOfBand released running bad).trans
      (congrArg Host.Outcome.next (invalidConversion_other (s := s.setWeigh { s.weigh with period := 0 }) _ other))
  · refine ⟨_, exec_conversionComplete_of_outOfBand released running bad, ?_⟩
    rw [← running]
    exact invalidConversion_eighth (s := s.setWeigh { s.weigh with period := 0 }) .outOfBand seventh
  · exact (exec_conversionOverflow_of_due released counts due).trans
      (congrArg Host.Outcome.next (invalidConversion_other (s := s.setWeigh (dropConversion s.weigh)) _ other))
  · exact ⟨_, exec_conversionOverflow_of_due released counts due,
      invalidConversion_eighth (s := s.setWeigh (dropConversion s.weigh)) .overflow seventh⟩

/-! ## Zero tracking (R54) -/

section
variable {s : State} {f z : Nat}

/-- A quotient rounded lies between 0 and its dividend (R2). -/
theorem roundAway_between (a : Int) {b : Nat} (pos : 0 < b) :
    (0 ≤ a → 0 ≤ roundAway a b ∧ roundAway a b ≤ a) ∧ (a ≤ 0 → a ≤ roundAway a b ∧ roundAway a b ≤ 0) := by
  have up (x : Int) (nonneg : 0 ≤ x) : 0 ≤ roundHalfUp x b ∧ roundHalfUp x b ≤ x := by
    refine ⟨Int.ediv_nonneg (by omega) (by omega), Int.lt_add_one_iff.mp (Int.ediv_lt_of_lt_mul (by omega) ?_)⟩
    have whole : x ≤ x * b := le_mul_of_one_le_right nonneg (by omega)
    linarith
  refine ⟨fun nonneg => roundAway_of_nonneg b nonneg ▸ up a nonneg, fun nonpos => ?_⟩
  rcases nonpos.lt_or_eq with neg | rfl
  · rw [roundAway_of_neg b neg]
    have := up (-a) (by omega)
    omega
  · rw [roundAway_of_nonneg b le_rfl]
    exact up 0 le_rfl

/-- The tracking step ends between the zero and the frequency (R54). -/
theorem zeroStep_bounds (k : Nat) {lo hi : Nat} (zlo : lo ≤ z) (zhi : z ≤ hi) (flo : lo ≤ f) (fhi : f ≤ hi) :
    lo ≤ ((z : Int) + roundAway ((f : Int) - z) (2 ^ k)).toNat ∧ ((z : Int) + roundAway ((f : Int) - z) (2 ^ k)).toNat ≤ hi := by
  obtain ⟨up, down⟩ := roundAway_between ((f : Int) - z) (Nat.two_pow_pos k)
  rcases le_total 0 ((f : Int) - z) with nonneg | nonpos
  · have := up nonneg
    omega
  · have := down nonpos
    omega

theorem Capture.inProgress_iff (c : Capture) : c.inProgress = true ↔ c.outcome = .inProgress := beq_iff_eq

theorem countSettle_of_settled (full : s.cal.zeroSettle ≤ s.weigh.settleCount) : countSettle s = s := if_pos (decide_eq_true full)

theorem countSettle_of_unsettled (early : s.weigh.settleCount < s.cal.zeroSettle) :
    countSettle s = s.setWeigh { s.weigh with settleCount := s.weigh.settleCount + 1 } :=
  if_neg (by simpa [settled] using early)

/-- No capture takes the conversion before the settle count is full, unless it is a span capture (R54, R57). -/
theorem emptyConversion_of_unsettled (f : Nat) (early : s.weigh.settleCount < s.cal.zeroSettle)
    (spare : ¬(s.weigh.capture.outcome = .inProgress ∧ s.weigh.capture.kind ≠ .zero)) :
    emptyConversion f s = s.setWeigh { s.weigh with settleCount := s.weigh.settleCount + 1 } := by
  have unsettled : settled s = false := by simpa [settled] using early
  rw [emptyConversion, countSettle_of_unsettled early]
  dsimp only
  rw [unsettled]
  split
  · next runs =>
    have kind : s.weigh.capture.kind = .zero := by_contra fun other => spare ⟨(Capture.inProgress_iff _).mp runs, other⟩
    exact (if_pos kind).trans (if_neg Bool.false_ne_true)
  · rfl

theorem emptyConversion_of_idle (f : Nat) (full : s.cal.zeroSettle ≤ s.weigh.settleCount)
    (idle : s.weigh.capture.outcome ≠ .inProgress) :
    emptyConversion f s = if s.weigh.zeroState = .normal then zeroTrack f s else s := by
  have run : settled s = true := decide_eq_true full
  rw [emptyConversion, countSettle_of_settled full, if_neg (mt (Capture.inProgress_iff _).mp idle), run]
  exact if_congr beq_iff_eq rfl rfl

theorem zeroTrack_of_within (fz : s.weigh.fz = some z) (within : ((f : Int) - z).natAbs ≤ s.cal.zeroBand) :
    zeroTrack f s = s.setWeigh { s.weigh with
      fz := some ((z : Int) + roundAway ((f : Int) - z) (2 ^ s.cal.zeroRate)).toNat, zeroRun := 0 } := by
  rw [zeroTrack, fz]
  exact if_pos within

theorem zeroTrack_of_beyond (fz : s.weigh.fz = some z) (beyond : s.cal.zeroBand < ((f : Int) - z).natAbs) :
    zeroTrack f s = if 15 ≤ s.weigh.zeroRun then
        raiseAll .zeroLost (max (-32767) (min 32767 ((f : Int) - z)))
          (s.setWeigh { s.weigh with zeroRun := 16, zeroState := .zeroFault })
      else s.setWeigh { s.weigh with zeroRun := s.weigh.zeroRun + 1 } := by
  rw [zeroTrack, fz]
  refine (if_neg (not_le.mpr beyond)).trans (if_congr (by omega) ?_ ?_)
  · rw [limitTo_eq_max_min _ (by omega)]
  · rfl

end

/-- Settles O34: the tracking step or the settle count, by the count and the capture found. -/
theorem zeroTrackingStep : Obligations.ZeroTrackingStep := by
  refine ⟨fun z s released running empty normal idle fz full => ?_, fun s released running empty => ?_⟩
  · intro f low high d moved taken
    have runs : exec .conversionComplete s = .next (zeroTrack f (s.setWeigh (s.weigh.converted f))) :=
      (exec_conversionComplete_of_empty released running empty low high).trans (congrArg Host.Outcome.next
        ((emptyConversion_of_idle (s := s.setWeigh (s.weigh.converted f)) f full idle).trans (if_pos normal)))
    refine ⟨fun within => ?_, fun zlo zhi _ => zeroStep_bounds _ zlo zhi low high, fun beyond short => ?_, fun beyond long => ?_⟩
    · exact runs.trans (congrArg Host.Outcome.next (zeroTrack_of_within (s := s.setWeigh (s.weigh.converted f)) fz within))
    · exact runs.trans (congrArg Host.Outcome.next
        ((zeroTrack_of_beyond (s := s.setWeigh (s.weigh.converted f)) fz beyond).trans (if_neg (not_le.mpr short))))
    · exact runs.trans (congrArg Host.Outcome.next
        ((zeroTrack_of_beyond (s := s.setWeigh (s.weigh.converted f)) fz beyond).trans (if_pos long)))
  · intro f low high taken
    have runs := exec_conversionComplete_of_empty released running empty low high
    refine ⟨fun early spare => ?_, fun full idle lost => ?_⟩
    · exact runs.trans (congrArg Host.Outcome.next
        (emptyConversion_of_unsettled (s := s.setWeigh (s.weigh.converted f)) f early spare))
    · have fault : ¬s.weigh.zeroState = .normal := by rw [lost]; exact nofun
      exact runs.trans (congrArg Host.Outcome.next
        ((emptyConversion_of_idle (s := s.setWeigh (s.weigh.converted f)) f full idle).trans (if_neg fault)))

/-! ## Captures requested (R56, R60, R61, R179) -/

section
variable {s : State}

theorem serve_zeroCapture (awaits : s.awaits ⟨.supervisor, Kind.zeroCapture.code, [], none⟩) :
    exec (.zeroCapture .supervisor []) s = .next (answer .supervisor 0x14 (ownZeroCapture s).1 (ownZeroCapture s).2) :=
  next_serve_of_awaits _ awaits rfl rfl

theorem serve_spanCapture {b2 b1 b0 : Byte} (awaits : s.awaits ⟨.supervisor, Kind.spanCapture.code, [b2, b1, b0], none⟩) :
    exec (.spanCapture .supervisor [b2, b1, b0]) s =
      .next (answer .supervisor 0x15 (ownSpanCapture [b2, b1, b0] s).1 (ownSpanCapture [b2, b1, b0] s).2) :=
  next_serve_of_awaits _ awaits rfl rfl

theorem ownZeroCapture_of_state (other : s.control.state ≠ .ready) : ownZeroCapture s = refuse .state s := if_pos other

theorem ownZeroCapture_of_busy (ready : s.control.state = .ready) (busy : s.weigh.capture.outcome = .inProgress) :
    ownZeroCapture s = refuse .busy s :=
  (if_neg (not_not.mpr ready)).trans (if_pos ((Capture.inProgress_iff _).mpr busy))

theorem ownZeroCapture_of_free (ready : s.control.state = .ready) (free : s.weigh.capture.outcome ≠ .inProgress) :
    ownZeroCapture s = (.ok [], beginZeroCapture s) :=
  (if_neg (not_not.mpr ready)).trans (if_neg (mt (Capture.inProgress_iff _).mp free))

theorem ownSpanCapture_of_state {p : List Byte} (other : s.control.state ≠ .ready) : ownSpanCapture p s = refuse .state s :=
  if_pos other

theorem ownSpanCapture_of_busy {p : List Byte} (ready : s.control.state = .ready) (busy : s.weigh.capture.outcome = .inProgress) :
    ownSpanCapture p s = refuse .busy s :=
  (if_neg (not_not.mpr ready)).trans (if_pos ((Capture.inProgress_iff _).mpr busy))

theorem ownSpanCapture_of_range {p : List Byte} (ready : s.control.state = .ready) (free : s.weigh.capture.outcome ≠ .inProgress)
    (out : u24At p 0 < 1000 ∨ 250000 < u24At p 0) : ownSpanCapture p s = refuse .range s :=
  (if_neg (not_not.mpr ready)).trans ((if_neg (mt (Capture.inProgress_iff _).mp free)).trans (if_pos out))

theorem ownSpanCapture_of_free {p : List Byte} (ready : s.control.state = .ready) (free : s.weigh.capture.outcome ≠ .inProgress)
    (inside : ¬(u24At p 0 < 1000 ∨ 250000 < u24At p 0)) :
    ownSpanCapture p s = (.ok [], beginCapture .span (some (u24At p 0)) s) :=
  (if_neg (not_not.mpr ready)).trans ((if_neg (mt (Capture.inProgress_iff _).mp free)).trans (if_neg inside))

/-- The record of a zero capture that has just started. -/
def begunZeroCapture : Capture := { Capture.reset with kind := .zero, outcome := .inProgress }

theorem beginZeroCapture_of_clear (clear : s.weigh.platform ≠ .waitClear) :
    beginZeroCapture s = { s with weigh := { s.weigh with capture := begunZeroCapture } } := if_neg clear

theorem beginZeroCapture_of_waitClear (waits : s.weigh.platform = .waitClear) :
    beginZeroCapture s = raiseOn .supervisor .calDone 4 { s with
      weigh := { s.weigh with capture := { begunZeroCapture with outcome := .calAborted, abortCause := some .eye } } } :=
  (if_pos waits).trans (abortCapture_of_capture .eye rfl)

theorem captureAllowed_iff (s : State) :
    captureAllowed s = true ↔ s.control.state = .ready ∧ s.weigh.capture.outcome ≠ .inProgress := by
  simp [captureAllowed, Capture.inProgress]

theorem exec_lineZeroCapture_of_space (released : s.resetHeld = false) (decoder : s.control.decoder = .space 5)
    (long : ms 40 ≤ s.spell) : exec .lineZeroCapture s = .next (handZeroCapture (setDecoder .idle s)) :=
  congrArg Host.Outcome.next ((unlessReset_of_released released).trans (endCommand_of_space handZeroCapture decoder long))

end

/-- Settles O35: each request, and the line command, by the operating state and the capture it finds. -/
theorem captureRequests : Obligations.CaptureRequests := by
  refine ⟨fun s awaits => ?_, fun b2 b1 b0 s awaits => ?_, fun s released decoder long => ?_⟩
  · intro begun
    rw [serve_zeroCapture awaits]
    refine ⟨fun other => ?_, fun ready busy => ?_, fun ready free clear => ?_, fun ready free waits => ?_⟩
    · rw [ownZeroCapture_of_state other]; rfl
    · rw [ownZeroCapture_of_busy ready busy]; rfl
    · rw [ownZeroCapture_of_free ready free, beginZeroCapture_of_clear clear]; rfl
    · rw [ownZeroCapture_of_free ready free, beginZeroCapture_of_waitClear waits]; rfl
  · intro mass
    rw [serve_spanCapture awaits]
    refine ⟨fun other => ?_, fun ready busy => ?_, fun ready free out => ?_, fun ready free low high => ?_⟩
    · rw [ownSpanCapture_of_state other]; rfl
    · rw [ownSpanCapture_of_busy ready busy]; rfl
    · rw [ownSpanCapture_of_range (p := [b2, b1, b0]) ready free out]; rfl
    · have inside : ¬(mass < 1000 ∨ 250000 < mass) := by omega
      rw [ownSpanCapture_of_free (p := [b2, b1, b0]) ready free inside]; rfl
  · intro ends
    rw [exec_lineZeroCapture_of_space released decoder long]
    refine ⟨fun refused => ?_, fun ready free clear => ?_, fun ready free waits => ?_⟩
    · have ignored : ¬captureAllowed (setDecoder .idle s) = true := by
        rw [captureAllowed_iff]
        rintro ⟨ready, free⟩
        exact refused.elim (absurd ready) free
      exact congrArg Host.Outcome.next (handLine_of_ignored 5 beginZeroCapture ignored)
    · exact congrArg Host.Outcome.next ((handLine_of_taken 5 beginZeroCapture
        ((captureAllowed_iff (setDecoder .idle s)).mpr ⟨ready, free⟩)).trans
        (by rw [beginZeroCapture_of_clear (s := setDecoder .idle s) clear]; rfl))
    · exact congrArg Host.Outcome.next ((handLine_of_taken 5 beginZeroCapture
        ((captureAllowed_iff (setDecoder .idle s)).mpr ⟨ready, free⟩)).trans
        (by rw [beginZeroCapture_of_waitClear (s := setDecoder .idle s) waits]; rfl))

end Sys2Proof.Machine

/-! The weigh unit: captures completed, and weighings ended by departure (O36, O37). -/

namespace Sys2Proof.Machine

/-! ## Captures completed (R57, R58, R59, R61, R153) -/

section
variable {s : State} {f : Nat}

/-- The capture record with one more conversion (R57). -/
def Capture.joined (c : Capture) (f : Nat) : Capture := { c with count := c.count + 1, sum := c.sum + f }

theorem takeIntoCapture_of_short (f : Nat) (short : s.weigh.capture.count + 1 < 64) :
    takeIntoCapture f s = s.setWeigh { s.weigh with capture := s.weigh.capture.joined f } := if_neg (not_le.mpr short)

theorem takeIntoCapture_of_zero (f : Nat) (last : s.weigh.capture.count = 63) (kind : s.weigh.capture.kind = .zero) :
    takeIntoCapture f s = completeZero (s.weigh.capture.joined f) s :=
  (if_pos (by rw [captureLength, last])).trans (if_pos kind)

theorem takeIntoCapture_of_span (f : Nat) (last : s.weigh.capture.count = 63) (kind : s.weigh.capture.kind = .span) :
    takeIntoCapture f s = completeSpan (s.weigh.capture.joined f) s :=
  (if_pos (by rw [captureLength, last])).trans (if_neg (by rw [kind]; exact nofun))

/-- The weigh unit as a capture takes a conversion: in EMPTY the settle count has gained one before it is full (R54, R57). -/
def State.capturing (s : State) (f : Nat) : State := s.setWeigh { s.weigh.converted f with
  settleCount := if s.weigh.platform = .empty ∧ s.weigh.settleCount < s.cal.zeroSettle then s.weigh.settleCount + 1
    else s.weigh.settleCount }

theorem capturing_of_empty (empty : s.weigh.platform = .empty) (f : Nat) :
    countSettle (s.setWeigh (s.weigh.converted f)) = s.capturing f := by
  rw [State.capturing]
  by_cases early : s.weigh.settleCount < s.cal.zeroSettle
  · rw [if_pos ⟨empty, early⟩]
    exact countSettle_of_unsettled (s := s.setWeigh (s.weigh.converted f)) early
  · rw [if_neg fun h => early h.2]
    exact countSettle_of_settled (s := s.setWeigh (s.weigh.converted f)) (not_lt.mp early)

theorem emptyConversion_of_zeroCapture (f : Nat) (runs : s.weigh.capture.outcome = .inProgress) (kind : s.weigh.capture.kind = .zero)
    (full : s.cal.zeroSettle ≤ s.weigh.settleCount) : emptyConversion f s = takeIntoCapture f (countSettle s) :=
  (if_pos ((Capture.inProgress_iff _).mpr runs)).trans ((if_pos kind).trans (if_pos (decide_eq_true full)))

theorem emptyConversion_of_spanCapture (f : Nat) (runs : s.weigh.capture.outcome = .inProgress) (kind : s.weigh.capture.kind = .span) :
    emptyConversion f s = takeIntoCapture f (countSettle s) :=
  (if_pos ((Capture.inProgress_iff _).mpr runs)).trans (if_neg (by rw [kind]; exact nofun))

theorem waitClearConversion_of_spanCapture (f : Nat) (runs : s.weigh.capture.outcome = .inProgress)
    (kind : s.weigh.capture.kind = .span) : waitClearConversion f s = takeIntoCapture f s :=
  if_pos (by simp [Capture.inProgress, runs, kind])

/-- A capture takes the valid conversions of its kind (R57). -/
theorem exec_conversionComplete_of_capture (released : s.resetHeld = false) (running : s.weigh.conversion = .running)
    (runs : s.weigh.capture.outcome = .inProgress)
    (own : (s.weigh.capture.kind = .zero ∧ s.weigh.platform = .empty ∧ s.cal.zeroSettle ≤ s.weigh.settleCount) ∨
      (s.weigh.capture.kind = .span ∧ (s.weigh.platform = .empty ∨ s.weigh.platform = .waitClear)))
    (low : 200000 ≤ s.frequency) (high : s.frequency ≤ 600000) :
    exec .conversionComplete s = .next (takeIntoCapture s.frequency (s.capturing s.frequency)) := by
  rcases own with ⟨kind, empty, full⟩ | ⟨kind, empty | waits⟩
  · rw [exec_conversionComplete_of_empty released running empty low high, ← capturing_of_empty empty]
    exact congrArg Host.Outcome.next
      (emptyConversion_of_zeroCapture (s := s.setWeigh (s.weigh.converted s.frequency)) _ runs kind full)
  · rw [exec_conversionComplete_of_empty released running empty low high, ← capturing_of_empty empty]
    exact congrArg Host.Outcome.next
      (emptyConversion_of_spanCapture (s := s.setWeigh (s.weigh.converted s.frequency)) _ runs kind)
  · have still : s.capturing s.frequency = s.setWeigh (s.weigh.converted s.frequency) := by
      rw [State.capturing, if_neg (by rw [waits]; exact fun h => nomatch h.1)]
      rfl
    rw [exec_conversionComplete_of_valid released running low high, validConversion_of_waitClear waits, still]
    exact congrArg Host.Outcome.next
      (waitClearConversion_of_spanCapture (s := s.setWeigh (s.weigh.converted s.frequency)) _ runs kind)

theorem captureSpan_of_good {mass m z : Nat} {load x : Int} (figure : loadFigure m z = load) (pos : 0 < load)
    (span : roundAway ((mass : Int) * 4294967296) load.toNat = x) (low : 1 ≤ x) (high : x ≤ 16777215) :
    captureSpan mass m z = some x.toNat := by
  unfold captureSpan
  norm_num only
  rw [figure, span, if_neg (not_le.mpr pos), if_pos (by omega)]

theorem captureSpan_of_bad {mass m z : Nat} {load x : Int} (figure : loadFigure m z = load)
    (span : roundAway ((mass : Int) * 4294967296) load.toNat = x) (bad : load ≤ 0 ∨ x < 1 ∨ 16777215 < x) :
    captureSpan mass m z = none := by
  unfold captureSpan
  norm_num only
  rw [figure, span]
  split
  · rfl
  · exact if_neg (by omega)

theorem completeSpan_of_some {c : Capture} {x : Nat}
    (span : captureSpan (c.testMass.getD 0) (captureMean c) (s.weigh.fz.getD 0) = some x) :
    completeSpan c s = endCapture { c with outcome := .calOk, mean := some (captureMean c), newValue := some x }
      (setRecordSpan x (s.setWeigh { s.weigh with span := some x })) := by
  rw [completeSpan]
  dsimp only
  rw [span]

theorem completeSpan_of_none {c : Capture} (span : captureSpan (c.testMass.getD 0) (captureMean c) (s.weigh.fz.getD 0) = none) :
    completeSpan c s = endCapture { c with outcome := .calRange, mean := some (captureMean c) } s := by
  rw [completeSpan]
  dsimp only
  rw [span]

theorem calDone_pending (o : CaptureOutcome) (s : State) :
    { cause := .calDone, detail := (o.code : Int) } ∈ ((calDone o s).att .supervisor).pending := by
  rw [calDone, raiseOn_att_same]
  exact mem_putCause ..

/-- The mean of the 64 conversions of a capture, rounded half up (R57). -/
theorem captureMean_joined (c : Capture) (f : Nat) : captureMean (c.joined f) = (2 * (c.sum + f) + 64) / 128 := rfl

/-- The 64th conversion of a zero capture sets the zero (R58, R61, R153). -/
theorem takeIntoCapture_of_last_zero {m : Nat} (last : s.weigh.capture.count = 63) (kind : s.weigh.capture.kind = .zero)
    (mean : captureMean (s.weigh.capture.joined f) = m) : ∃ t, takeIntoCapture f s = t ∧ t.weigh.fz = some m ∧
      t.weigh.zeroState = .normal ∧ t.weigh.zeroRun = 0 ∧ t.weigh.span = s.weigh.span ∧
      t.weigh.capture.outcome = .calOk ∧ t.weigh.capture.count = 64 ∧ t.weigh.capture.newValue = some m ∧
      t.store = { s.store with calibration := s.store.calibration.map (fun k => { k with zeroFigure := m }) } ∧
      { cause := .calDone, detail := 2 } ∈ (t.att .supervisor).pending ∧ t.att .filler = s.att .filler ∧
      t.att .quality = s.att .quality ∧ t.control = s.control ∧ t.dose = s.dose ∧ t.tracking = s.tracking := by
  subst mean
  exact ⟨_, takeIntoCapture_of_zero f last kind, rfl, rfl, rfl, rfl, rfl, congrArg (· + 1) last, rfl, rfl,
    calDone_pending .calOk _, rfl, rfl, rfl, rfl, rfl⟩

/-- The 64th conversion of a span capture in range sets the span (R59, R61, R153). -/
theorem takeIntoCapture_of_last_span {x : Nat} (last : s.weigh.capture.count = 63) (kind : s.weigh.capture.kind = .span)
    (span : captureSpan (s.weigh.capture.testMass.getD 0) (captureMean (s.weigh.capture.joined f)) (s.weigh.fz.getD 0) = some x) :
    ∃ t, takeIntoCapture f s = t ∧ t.weigh.span = some x ∧ t.weigh.fz = s.weigh.fz ∧
      t.weigh.zeroState = s.weigh.zeroState ∧ t.weigh.capture.outcome = .calOk ∧ t.weigh.capture.newValue = some x ∧
      t.store = { s.store with calibration := s.store.calibration.map (fun k => { k with span := x }) } ∧
      { cause := .calDone, detail := 2 } ∈ (t.att .supervisor).pending :=
  ⟨_, (takeIntoCapture_of_span f last kind).trans (completeSpan_of_some span), rfl, rfl, rfl, rfl, rfl, rfl,
    calDone_pending .calOk _⟩

/-- The 64th conversion of a span capture out of range sets nothing (R59, R61). -/
theorem takeIntoCapture_of_last_outOfRange (last : s.weigh.capture.count = 63) (kind : s.weigh.capture.kind = .span)
    (span : captureSpan (s.weigh.capture.testMass.getD 0) (captureMean (s.weigh.capture.joined f)) (s.weigh.fz.getD 0) = none) :
    ∃ t, takeIntoCapture f s = t ∧ t.weigh.span = s.weigh.span ∧ t.weigh.fz = s.weigh.fz ∧
      t.weigh.zeroState = s.weigh.zeroState ∧ t.weigh.capture.outcome = .calRange ∧ t.store = s.store ∧
      { cause := .calDone, detail := 3 } ∈ (t.att .supervisor).pending :=
  ⟨_, (takeIntoCapture_of_span f last kind).trans (completeSpan_of_none span), rfl, rfl, rfl, rfl, rfl, calDone_pending .calRange _⟩

end

/-- Settles O36: below the 64th a capture only sums; at the 64th each kind completes in its own way. -/
theorem captureCompletes : Obligations.CaptureCompletes := by
  intro z s released running fz runs own f low high
  have taken : exec .conversionComplete s = .next (takeIntoCapture f (s.capturing f)) :=
    exec_conversionComplete_of_capture released running runs own low high
  clear_value f
  refine ⟨fun short => ?_, fun last => ?_⟩
  · exact taken.trans (congrArg Host.Outcome.next (takeIntoCapture_of_short (s := s.capturing f) f short))
  · intro m load span
    have mean : captureMean (s.weigh.capture.joined f) = m := captureMean_joined ..
    have figure : loadFigure m (s.weigh.fz.getD 0) = load := by rw [fz, loadFigure, ← pow_two, ← pow_two]; rfl
    have spanned : roundAway (((s.weigh.capture.testMass.getD 0 : Nat) : Int) * 4294967296) load.toNat = span := rfl
    clear_value m load span
    refine ⟨fun kind => ?_, fun kind pos least most => ?_, fun kind bad => ?_⟩
    · obtain ⟨t, run, effects⟩ := takeIntoCapture_of_last_zero (s := s.capturing f) last kind mean
      exact ⟨t, taken.trans (congrArg Host.Outcome.next run), effects⟩
    · obtain ⟨t, run, effects⟩ := takeIntoCapture_of_last_span (s := s.capturing f) last kind
        (mean ▸ captureSpan_of_good figure pos spanned least most)
      exact ⟨t, taken.trans (congrArg Host.Outcome.next run), effects⟩
    · obtain ⟨t, run, effects⟩ := takeIntoCapture_of_last_outOfRange (s := s.capturing f) last kind
        (mean ▸ captureSpan_of_bad figure spanned bad)
      exact ⟨t, taken.trans (congrArg Host.Outcome.next run), effects⟩

end Sys2Proof.Machine

/-! The eye clears: a weighing ended by departure (O37). -/

namespace Sys2Proof.Machine

/-! ## A control update does not look at the pins, the queue and the weigh unit (chapter 5) -/

section
variable {s : State} {p : Pins} {q : Tracking} {w : WeighUnit}

/-- The state with the pins, the tracking unit and the weigh unit replaced. -/
def State.aside (s : State) (p : Pins) (q : Tracking) (w : WeighUnit) : State := { s with pins := p, tracking := q, weigh := w }

theorem raisedByUpdate_aside (r : Recipe) (v : Nat) (net : Int) (s t : State) :
    raisedByUpdate r v net s (t.aside p q w) = (raisedByUpdate r v net s t).aside p q w := by
  unfold raisedByUpdate
  dsimp only
  split
  · split <;> rfl
  · split <;> rfl

theorem centeringCount_aside (r : Recipe) (s : State) : centeringCount r (s.aside p q w) = (centeringCount r s).aside p q w := by
  unfold centeringCount
  by_cases due : r.centerEvery ≤ s.dose.centering + 1
  · rw [if_pos due, if_pos (show r.centerEvery ≤ (s.aside p q w).dose.centering + 1 from due)]
    rfl
  · rw [if_neg due, if_neg (show ¬r.centerEvery ≤ (s.aside p q w).dose.centering + 1 from due)]
    rfl

theorem controlUpdate_aside (r : Recipe) (v : Nat) (net : Int) (s : State) :
    controlUpdate r v net (s.aside p q w) = (controlUpdate r v net s).aside p q w := by
  rw [controlUpdate_eq, controlUpdate_eq, entryUpdated, entryUpdated, ← centeringCount_aside, ← raisedByUpdate_aside]
  rfl

end

/-! ## The reading of a departure (R49, R50, R82, R106) -/

section
variable {s : State} {c : CanRecord} {w : Weighing}

/-- A departure gives a reading of the kept weights, or none, with its cause. -/
theorem readingOf_departure_cases (zero : ZeroState) (k : Calibration) (w : Weighing) (st : Store) (g : Generation) :
    (∃ x, readingOf st g (departureResult zero k w) = .noReading x) ∨
      readingOf st g (departureResult zero k w) =
        .valid (roundAway (remaining k.tailDrop w.buffer).sum (remaining k.tailDrop w.buffer).length)
          (roundAway (remaining k.tailDrop w.buffer).sum (remaining k.tailDrop w.buffer).length - tareOf st g) := by
  unfold departureResult
  dsimp only
  split
  · exact .inl ⟨_, rfl⟩
  · split
    · exact .inl ⟨_, rfl⟩
    · split
      · exact .inl ⟨_, rfl⟩
      · exact .inr rfl

/-- The reasons of a reading of `gross` against the tare, or of none (R82). -/
theorem mem_readingReasons_of_cases {st : Store} {g : Generation} {rd : Reading} {gross net : Int}
    (either : (∃ x, rd = .noReading x) ∨ rd = .valid gross net) (r : Reason) :
    r ∈ readingReasons st g rd ↔ (r = .noReading ∧ ∃ x, rd = .noReading x) ∨
      (r = .underweight ∧ rd = .valid gross net ∧ ∃ k, st.recipeOf g = some k ∧ net < (k.targetNet : Int) - k.tolUnder) ∨
      (r = .overweight ∧ rd = .valid gross net ∧ ∃ k, st.recipeOf g = some k ∧ (k.targetNet : Int) + k.tolOver < net) := by
  rw [mem_readingReasons]
  rcases either with ⟨x, rfl⟩ | rfl
  · simp
  · constructor
    · rintro (⟨-, x, none⟩ | ⟨_, _, same, k, recipe, ⟨rfl, below⟩ | ⟨rfl, above⟩⟩)
      · cases none
      · cases same; exact .inr (.inl ⟨rfl, rfl, k, recipe, below⟩)
      · cases same; exact .inr (.inr ⟨rfl, rfl, k, recipe, above⟩)
    · rintro (⟨-, x, none⟩ | ⟨rfl, -, k, recipe, below⟩ | ⟨rfl, -, k, recipe, above⟩)
      · cases none
      · exact .inr ⟨_, _, rfl, k, recipe, .inl ⟨rfl, below⟩⟩
      · exact .inr ⟨_, _, rfl, k, recipe, .inr ⟨rfl, above⟩⟩

theorem handToDose_of_valid {v : Nat} {gross net : Int} (origin : c.origin = .filled) (valve : c.valve = some v) :
    handToDose (.valid gross net) c s = controlReading v c.generation c.fillStatus net s := by
  unfold handToDose
  rw [origin, valve]

/-- The dose unit hears nothing of a reading that is none, of an orphan, of a record without a valve or without a recipe. -/
theorem handToDose_of_set_aside {rd : Reading}
    (aside : (∃ x, rd = .noReading x) ∨ c.origin = .orphan ∨ c.valve = none ∨ s.store.current = none) :
    handToDose rd c s = s := by
  unfold handToDose
  split
  · next origin valve =>
    rcases aside with ⟨x, none⟩ | orphan | none | none
    · cases none
    · cases origin.symm.trans orphan
    · cases valve.symm.trans none
    · rw [controlReading, none]
  · rfl

theorem controlReading_of_admitted {v : Nat} {g : Generation} {fs : FillStatus} {h : HeldRecipe} (net : Int)
    (current : s.store.current = some h)
    (admitted : h.generation = g ∧ fs = .normal ∧ (s.valve v).state.steered = true ∧ s.frozen = false) :
    controlReading v g fs net s = controlUpdate h.recipe v net s := by
  rw [controlReading, current]
  exact if_pos (by simpa using admitted)

theorem controlReading_of_other {v : Nat} {g : Generation} {fs : FillStatus} {h : HeldRecipe} (net : Int)
    (current : s.store.current = some h)
    (other : ¬(h.generation = g ∧ fs = .normal ∧ (s.valve v).state.steered = true ∧ s.frozen = false)) :
    controlReading v g fs net s = s := by
  rw [controlReading, current]
  exact if_neg (by simpa using other)

end

/-! ## The clearing edge (R38, R46) -/

section
variable {s : State} {w : Weighing}

theorem exec_eyeClearingEdge (released : s.resetHeld = false) :
    exec .eyeClearingEdge s = .next (clearEye { s with pins := { s.pins with eye := false } }) :=
  next_unlessReset (s := { s with pins := { s.pins with eye := false } }) released clearEye

/-- The state at a departure with the queue `q`: the unit is EMPTY and waits for an edge of the cell (R38, R46). -/
def State.departing (s : State) (q : List CanRecord) : State := s.aside { s.pins with eye := false } { s.tracking with queue := q }
  { s.weigh with platform := .empty, settleCount := 0, conversion := .waiting, period := 0 }

theorem exec_eyeClearingEdge_of_dwell (released : s.resetHeld = false) (dwell : s.weigh.platform = .dwell w) :
    exec .eyeClearingEdge s =
      .next (post w (departureResult s.weigh.zeroState s.cal w) (s.departing s.tracking.queue)) := by
  rw [exec_eyeClearingEdge released, clearEye]
  dsimp only
  rw [dwell]
  rfl

/-- The reading of a departure is posted to the bound record, and handed to the dose unit (R51). -/
theorem exec_eyeClearingEdge_of_bound {n : Serial} {ahead rest : List CanRecord} {c : CanRecord} {rd : Reading}
    (released : s.resetHeld = false) (dwell : s.weigh.platform = .dwell w) (bound : w.binding = some n)
    (queue : s.tracking.queue = ahead ++ c :: rest) (first : ∀ a ∈ ahead, ¬(a.serial = n ∧ a.stage = .onPlatform))
    (serial : c.serial = n) (stage : c.stage = .onPlatform)
    (read : readingOf s.store c.generation (departureResult s.weigh.zeroState s.cal w) = rd) :
    exec .eyeClearingEdge s = .next (handToDose rd c (s.departing (ahead ++ postedRecord s rd c :: rest))) := by
  subst read
  exact (exec_eyeClearingEdge_of_dwell released dwell).trans (congrArg Host.Outcome.next
    (post_of_bound (s := s.departing s.tracking.queue) bound queue first serial stage))

theorem exec_eyeClearingEdge_of_waitClear (released : s.resetHeld = false) (waits : s.weigh.platform = .waitClear) :
    exec .eyeClearingEdge s = .next { s with
      pins := { s.pins with eye := false }, weigh := { s.weigh with platform := .empty, settleCount := 0 } } := by
  rw [exec_eyeClearingEdge released, clearEye]
  dsimp only
  rw [waits]
  rfl

end

/-- Settles O37: a reading posted, and what the dose unit makes of it. -/
theorem eyeClears : Obligations.EyeClears := by
  intro s released
  refine ⟨exec_eyeClearingEdge_of_waitClear released, fun w dwell free => ?_,
    fun w n ahead c rest dwell bound queue first serial stage => ?_⟩
  · rw [exec_eyeClearingEdge_of_dwell released dwell]
    exact congrArg Host.Outcome.next (post_of_unbound (s := s.departing s.tracking.queue) free)
  · intro kept gross tare rd
    have read : readingOf s.store c.generation (departureResult s.weigh.zeroState s.cal w) = rd := by
      rw [departureResult, apply_ite (readingOf _ _), apply_ite (readingOf _ _), apply_ite (readingOf _ _)]
      rfl
    have either : (∃ x, rd = .noReading x) ∨ rd = .valid gross (gross - tare) := read ▸ readingOf_departure_cases ..
    clear_value rd
    obtain ⟨a, d, frame⟩ := handToDose_frame rd c (s.departing (ahead ++ postedRecord s rd c :: rest))
    refine ⟨_, (postedRecord s rd c).reasons, exec_eyeClearingEdge_of_bound released dwell bound queue first serial stage read,
      ?tracking, ?weigh, ?store, ?gate, ?canList, ?control, ?links, fun r => ?reasons, fun aside => ?aside,
      fun v h origin valve valid current => ⟨fun admitted => ?admitted, fun other => ?other⟩⟩
    case reasons => rw [mem_postedRecord, mem_readingReasons_of_cases either, or_assoc, or_assoc]
    case aside => rw [handToDose_of_set_aside (s := s.departing _) aside]; exact ⟨rfl, rfl⟩
    case admitted =>
      rw [valid, handToDose_of_valid origin valve, controlReading_of_admitted (s := s.departing _) _ current admitted,
        State.departing, controlUpdate_aside]
      exact ⟨rfl, rfl⟩
    case other =>
      rw [valid, handToDose_of_valid origin valve, controlReading_of_other (s := s.departing _) _ current other]
      exact ⟨rfl, rfl⟩
    all_goals rw [frame]; rfl

end Sys2Proof.Machine

/-! Encoder pulses and the station passes (O27). -/

namespace Sys2Proof.Machine

/-! ## What the passes leave of the tracking unit (R3, R4, R17) -/

/-- The position, the divider residue and the can serial counter are the same. -/
structure SameCounters (s t : State) : Prop where
  position : t.tracking.position = s.tracking.position
  residue : t.tracking.residue = s.tracking.residue
  serial : t.tracking.serial = s.tracking.serial

section
variable {s t u : State}

theorem SameCounters.refl (s : State) : SameCounters s s := ⟨rfl, rfl, rfl⟩

theorem SameCounters.of_tracking (same : t.tracking = s.tracking) : SameCounters s t := by
  constructor <;> rw [same]

theorem SameCounters.trans (h : SameCounters s t) (k : SameCounters t u) : SameCounters s u :=
  ⟨k.position.trans h.position, k.residue.trans h.residue, k.serial.trans h.serial⟩

theorem SameCounters.after (k : SameCounters t u) (h : SameCounters s t) : SameCounters s u := h.trans k

theorem handToDose_tracking (rd : Reading) (c : CanRecord) (s : State) : (handToDose rd c s).tracking = s.tracking := by
  obtain ⟨a, d, frame⟩ := handToDose_frame rd c s
  rw [frame]

theorem post_counters (w : Weighing) (res : WeighResult) (s : State) : SameCounters s (post w res s) := by
  unfold post
  split
  · exact .refl s
  · unfold postTo
    split
    · exact .refl s
    · exact (SameCounters.of_tracking (handToDose_tracking ..)).after ⟨rfl, rfl, rfl⟩

theorem endWithCause_counters (cause : NoReadingCause) (s : State) : SameCounters s (endWithCause cause s) := by
  unfold endWithCause
  split
  · exact (post_counters ..).after ⟨rfl, rfl, rfl⟩
  · exact .refl s

theorem haltReason_tracking (c : Cause) (d : Int) (s : State) : (haltReason c d s).tracking = s.tracking := by
  obtain ⟨a, k, frame⟩ := haltReason_frame c d s
  rw [frame]

theorem slipAdd_counters (L : Layout) (s : State) : SameCounters s (slipAdd L s) := by
  unfold slipAdd
  dsimp only
  split
  · exact (SameCounters.of_tracking (haltReason_tracking ..)).after ⟨rfl, rfl, rfl⟩
  · exact ⟨rfl, rfl, rfl⟩

theorem iterate_slipAdd_counters (L : Layout) (n : Nat) (s : State) : SameCounters s (iterate (slipAdd L) n s) := by
  induction n generalizing s with
  | zero => exact .refl s
  | succ n ih => exact (slipAdd_counters L s).trans (ih _)

theorem platformPass_counters (L : Layout) (s : State) : SameCounters s (platformPass L s) := by
  unfold platformPass
  dsimp only
  split
  · exact (iterate_slipAdd_counters ..).after ⟨rfl, rfl, rfl⟩
  · exact ⟨rfl, rfl, rfl⟩

theorem handOver_tracking (L : Layout) (c : CanRecord) (s : State) : (handOver L c s).tracking = s.tracking := by
  obtain ⟨_, _, _, _, _, _, frame⟩ := handOver_frame L c s
  rw [frame]

theorem gatePass_counters (L : Layout) (n : Nat) (s : State) : SameCounters s (gatePass L n s) := by
  induction n generalizing s with
  | zero => exact .refl s
  | succ n ih =>
    unfold gatePass
    split
    · exact .refl s
    · split
      · exact (ih _).after ((SameCounters.of_tracking (handOver_tracking ..)).after ⟨rfl, rfl, rfl⟩)
      · exact .refl s

theorem wholeGatePass_counters (L : Layout) (s : State) : SameCounters s (wholeGatePass L s) := gatePass_counters ..

theorem readPass_counters (L : Layout) (s : State) : SameCounters s (readPass L s) := ⟨rfl, rfl, rfl⟩

/-! ## The orders of the passes (R17, R47, R84) -/

theorem bridgedDue_iff (L : Layout) (s : State) : bridgedDue L s = true ↔
    ∃ w, s.weigh.platform = .dwell w ∧ (L.maxDwell : Int) < posDiff s.tracking.position w.arrival := by
  unfold bridgedDue
  split
  · next w dwell => simp [dwell]
  · next other => simpa using fun w dwell => absurd dwell (other w)

theorem examineStations_of_not_bridged (L : Layout) (due : ¬bridgedDue L s = true) :
    examineStations L s = wholeGatePass L (readPass L (platformPass L s)) := if_neg due

/-- The end of the weighing falls before, between or after the passes (log entry 2). -/
theorem examineStations_of_bridged (L : Layout) (due : bridgedDue L s = true) :
    examineStations L s = wholeGatePass L (readPass L (platformPass L (endWithCause .bridged s.chosen))) ∨
      examineStations L s = wholeGatePass L (readPass L (endWithCause .bridged (platformPass L s.chosen))) ∨
      examineStations L s = wholeGatePass L (endWithCause .bridged (readPass L (platformPass L s.chosen))) ∨
      examineStations L s = endWithCause .bridged (wholeGatePass L (readPass L (platformPass L s.chosen))) := by
  unfold examineStations
  rw [if_pos due]
  dsimp only
  split
  · exact .inl rfl
  · exact .inr (.inl rfl)
  · exact .inr (.inr (.inl rfl))
  · exact .inr (.inr (.inr rfl))

theorem examineStations_counters (L : Layout) (s : State) : SameCounters s (examineStations L s) := by
  have passes (u : State) := ((platformPass_counters L u).trans (readPass_counters L _))
  have chosen : SameCounters s s.chosen := ⟨rfl, rfl, rfl⟩
  by_cases due : bridgedDue L s = true
  · rcases examineStations_of_bridged L due with e | e | e | e
    · exact e ▸ ((chosen.trans (endWithCause_counters ..)).trans (passes _)).trans (wholeGatePass_counters ..)
    · exact e ▸ (((chosen.trans (platformPass_counters ..)).trans (endWithCause_counters ..)).trans (readPass_counters ..)).trans
        (wholeGatePass_counters ..)
    · exact e ▸ ((chosen.trans (passes _)).trans (endWithCause_counters ..)).trans (wholeGatePass_counters ..)
    · exact e ▸ ((chosen.trans (passes _)).trans (wholeGatePass_counters ..)).trans (endWithCause_counters ..)
  · rw [examineStations_of_not_bridged L due]
    exact (passes s).trans (wholeGatePass_counters ..)

/-! ## The gate pass (R20) -/

/-- The queue is empty or its head is short of the reject distance (R20). -/
def State.gateClear (L : Layout) (s : State) : Prop :=
  ∀ c rest, s.tracking.queue = c :: rest → c.elapsed s.tracking.position < L.rejectDistance

theorem gatePass_clear (L : Layout) (n : Nat) (s : State) (enough : s.tracking.queue.length ≤ n) : (gatePass L n s).gateClear L := by
  induction n generalizing s with
  | zero =>
    have none : s.tracking.queue = [] := List.eq_nil_of_length_eq_zero (Nat.le_zero.mp enough)
    exact fun c rest queue => nomatch none.symm.trans queue
  | succ n ih =>
    unfold gatePass
    split
    · next none => exact fun c rest queue => nomatch none.symm.trans queue
    · next c rest queue =>
      split
      · refine ih _ ?_
        rw [handOver_tracking]
        rw [queue] at enough
        exact Nat.le_of_succ_le_succ enough
      · next short =>
        intro d rest' queue'
        cases queue.symm.trans queue'
        exact not_le.mp short

theorem wholeGatePass_clear (L : Layout) (s : State) : (wholeGatePass L s).gateClear L := gatePass_clear L _ s le_rfl

/-- Where the head is short of the gate depends on the discharge positions alone. -/
theorem gateClear_of_discharges {L : Layout} (position : t.tracking.position = s.tracking.position)
    (same : t.tracking.queue.map CanRecord.discharge = s.tracking.queue.map CanRecord.discharge) (clear : s.gateClear L) :
    t.gateClear L := by
  intro c rest queue
  rw [queue] at same
  obtain ⟨d, rest', queue', discharge, -⟩ := List.map_eq_cons_iff.mp same.symm
  have short := clear d rest' queue'
  rw [CanRecord.elapsed, ← discharge] at *
  rwa [position]

theorem discharges_mapFirst {p : CanRecord → Bool} {f : CanRecord → CanRecord} (same : ∀ c, (f c).discharge = c.discharge)
    (q : List CanRecord) : (mapFirst p f q).map CanRecord.discharge = q.map CanRecord.discharge := by
  induction q with
  | nil => rfl
  | cons c rest ih => unfold mapFirst; split <;> simp [same, ih]

theorem post_discharges (w : Weighing) (res : WeighResult) (s : State) :
    (post w res s).tracking.queue.map CanRecord.discharge = s.tracking.queue.map CanRecord.discharge := by
  unfold post
  split
  · rfl
  · unfold postTo
    split
    · rfl
    · exact (congrArg (fun q : Tracking => q.queue.map CanRecord.discharge) (handToDose_tracking ..)).trans
        (discharges_mapFirst (f := postedRecord s _) (fun _ => rfl) _)

theorem endWithCause_discharges (cause : NoReadingCause) (s : State) :
    (endWithCause cause s).tracking.queue.map CanRecord.discharge = s.tracking.queue.map CanRecord.discharge := by
  unfold endWithCause
  split
  · exact post_discharges _ _ (s.setWeigh _)
  · rfl

theorem examineStations_clear (L : Layout) (s : State) : (examineStations L s).gateClear L := by
  by_cases due : bridgedDue L s = true
  · rcases examineStations_of_bridged L due with e | e | e | e
    · exact e ▸ wholeGatePass_clear L _
    · exact e ▸ wholeGatePass_clear L _
    · exact e ▸ wholeGatePass_clear L _
    · exact e ▸ gateClear_of_discharges (endWithCause_counters ..).position (endWithCause_discharges ..) (wholeGatePass_clear L _)
  · exact examineStations_of_not_bridged L due ▸ wholeGatePass_clear L _

theorem wholeGatePass_of_empty (L : Layout) (none : s.tracking.queue = []) : wholeGatePass L s = s := by
  rw [wholeGatePass, none]
  rfl

theorem wholeGatePass_of_head (L : Layout) {c : CanRecord} {rest : List CanRecord} (queue : s.tracking.queue = c :: rest) :
    wholeGatePass L s = if (L.rejectDistance : Int) ≤ c.elapsed s.tracking.position then
      wholeGatePass L (handOver L c { s with tracking := { s.tracking with queue := rest } }) else s := by
  rw [wholeGatePass, wholeGatePass, handOver_tracking, queue, List.length_cons, gatePass, queue]

/-! ## The platform pass and the slip run (R18, R21, R29, R81) -/

/-- A HALT reason does not look at the pins, the tracking unit and the weigh unit. -/
theorem haltReason_aside (c : Cause) (d : Int) (p : Pins) (x : Tracking) (w : WeighUnit) (s : State) :
    haltReason c d (s.aside p x w) = (haltReason c d s).aside p x w := by
  have same : (s.aside p x w).control.state = s.control.state := rfl
  rcases haltReason_cases c d s with ⟨other, e⟩ | ⟨run, e⟩
  · rcases haltReason_cases c d (s.aside p x w) with ⟨-, e'⟩ | ⟨run', -⟩
    · rw [e, e']; rfl
    · exact absurd (same.symm.trans run') other
  · rcases haltReason_cases c d (s.aside p x w) with ⟨other', -⟩ | ⟨-, e'⟩
    · exact absurd (same.trans run) other'
    · rw [e, e']; rfl

theorem haltReason_setTracking (c : Cause) (d : Int) (x : Tracking) (s : State) :
    haltReason c d (s.setTracking x) = (haltReason c d s).setTracking x := by
  obtain ⟨a, k, frame⟩ := haltReason_frame c d s
  exact (haltReason_aside c d s.pins x s.weigh s).trans (by rw [frame]; rfl)

/-- TRACK_SLIP is raised as the slip run comes from below the slip alarm to `run` (R29). -/
def slipAlarmed (L : Layout) (run : Nat) (s : State) : State :=
  if s.tracking.slip < L.slipAlarm ∧ L.slipAlarm ≤ run then haltReason .trackSlip L.slipAlarm s else s

theorem slipAlarmed_setTracking {L : Layout} {run run' : Nat} {x : Tracking}
    (same : x.slip < L.slipAlarm ∧ L.slipAlarm ≤ run' ↔ s.tracking.slip < L.slipAlarm ∧ L.slipAlarm ≤ run) :
    slipAlarmed L run' (s.setTracking x) = (slipAlarmed L run s).setTracking x := by
  unfold slipAlarmed
  by_cases alarm : s.tracking.slip < L.slipAlarm ∧ L.slipAlarm ≤ run
  · rw [if_pos alarm, ← haltReason_setTracking]
    exact if_pos (same.mpr alarm)
  · rw [if_neg alarm]
    exact if_neg (mt same.mp alarm)

theorem slipAdd_eq (L : Layout) (s : State) : slipAdd L s =
    (slipAlarmed L (min 255 (s.tracking.slip + 1)) s).setTracking
      { s.tracking with slip := min 255 (s.tracking.slip + 1) } := by
  rw [slipAdd, slipAlarmed, satInc_eq_min]
  by_cases alarm : s.tracking.slip < L.slipAlarm ∧ L.slipAlarm ≤ min 255 (s.tracking.slip + 1)
  · rw [if_pos alarm, if_pos alarm, haltReason_setTracking, show min 255 (s.tracking.slip + 1) = L.slipAlarm by omega]
  · rw [if_neg alarm, if_neg alarm]

/-- The slip run after `k` marks (R29). -/
def slipAfter (slip k : Nat) : Nat := if 0 < k then min 255 (slip + k) else slip

/-- Of several marks in a row at most one brings the slip run to its alarm (R29). -/
theorem iterate_slipAdd (L : Layout) (k : Nat) (s : State) : iterate (slipAdd L) k s =
    (slipAlarmed L (slipAfter s.tracking.slip k) s).setTracking { s.tracking with slip := slipAfter s.tracking.slip k } := by
  induction k generalizing s with
  | zero =>
    rw [slipAlarmed, if_neg (by simp [slipAfter])]
    rfl
  | succ k ih =>
    have first := slipAdd_eq L s
    have slip : (slipAdd L s).tracking = { s.tracking with slip := min 255 (s.tracking.slip + 1) } := by rw [first]; rfl
    have after : slipAfter (min 255 (s.tracking.slip + 1)) k = slipAfter s.tracking.slip (k + 1) := by
      unfold slipAfter
      split <;> split <;> omega
    have grows : min 255 (s.tracking.slip + 1) ≤ slipAfter s.tracking.slip (k + 1) := by
      rw [slipAfter, if_pos (Nat.succ_pos k)]
      omega
    rw [iterate, ih, slip]
    dsimp only
    rw [after]
    by_cases alarm : s.tracking.slip < L.slipAlarm ∧ L.slipAlarm ≤ min 255 (s.tracking.slip + 1)
    · have past : ¬((slipAdd L s).tracking.slip < L.slipAlarm ∧ L.slipAlarm ≤ slipAfter s.tracking.slip (k + 1)) := by
        rw [slip]
        exact fun h => absurd alarm.2 (not_le.mpr h.1)
      rw [slipAlarmed, if_neg past, first, slipAlarmed, if_pos alarm, slipAlarmed, if_pos ⟨alarm.1, alarm.2.trans grows⟩]
      rfl
    · have still : slipAdd L s = s.setTracking { s.tracking with slip := min 255 (s.tracking.slip + 1) } := by
        rw [first, slipAlarmed, if_neg alarm]
      have later : min 255 (s.tracking.slip + 1) < L.slipAlarm ∧ L.slipAlarm ≤ slipAfter s.tracking.slip (k + 1) ↔
          s.tracking.slip < L.slipAlarm ∧ L.slipAlarm ≤ slipAfter s.tracking.slip (k + 1) := by
        have most : slipAfter s.tracking.slip (k + 1) ≤ 255 := by
          rw [slipAfter, if_pos (Nat.succ_pos k)]
          omega
        omega
      rw [still, slipAlarmed_setTracking later]
      rfl

/-- What the platform pass leaves, by the front of the queue in which every FILLED record is late (R18, R21, R29, R81). -/
theorem platformPass_eq (L : Layout) (s : State) :
    let k := countMissed (pastPlatform L s.tracking.position) s.tracking.queue
    let run := if s.control.state.working = true then slipAfter s.tracking.slip k else s.tracking.slip
    platformPass L s = (slipAlarmed L run s).setTracking { s.tracking with
      queue := markMissed (pastPlatform L s.tracking.position) s.tracking.queue, slip := run } := by
  intro k run
  rw [platformPass]
  split
  · next works =>
    have own : run = slipAfter s.tracking.slip k := if_pos works
    rw [iterate_slipAdd, own]
    exact (congrArg (State.setTracking · _) (slipAlarmed_setTracking (s := s) (run := slipAfter s.tracking.slip k)
      (x := { s.tracking with queue := markMissed (pastPlatform L s.tracking.position) s.tracking.queue }) .rfl)).trans rfl
  · next idle =>
    have own : run = s.tracking.slip := if_neg idle
    rw [own, slipAlarmed, if_neg (by omega)]
    rfl

end

/-! ## The pulse and the position step (R3, R4) -/

section
variable {s : State}

theorem markedMissed_eq (c : CanRecord) :
    c.markedMissed = { c with stage := .missed, reasons := addReason .missed c.reasons } := rfl

/-- What the alarm of the slip run does (R29, R172). -/
theorem slipAlarmed_effects (L : Layout) (run : Nat) (s : State) :
    (s.tracking.slip < L.slipAlarm ∧ L.slipAlarm ≤ run →
      (slipAlarmed L run s).pendingOnAll .trackSlip L.slipAlarm ∧ (slipAlarmed L run s).haltedBy s .trackSlip) ∧
    (¬(s.tracking.slip < L.slipAlarm ∧ L.slipAlarm ≤ run) → slipAlarmed L run s = s) := by
  refine ⟨fun alarm => ?_, fun none => if_neg none⟩
  rw [slipAlarmed, if_pos alarm]
  exact haltReason_effects (c := .trackSlip) nofun _ _

theorem slipRun_eq (op : OpState) (slip k : Nat) : (if op.working = true then slipAfter slip k else slip) =
    if (op = .run ∨ op = .halt) ∧ 0 < k then min 255 (slip + k) else slip := by
  simp only [slipAfter, working_iff]
  by_cases works : op = .run ∨ op = .halt
  · simp [works]
  · rw [if_neg works, if_neg fun h => works h.1]

theorem slipAlarmed_frame (L : Layout) (run : Nat) (s : State) : slipAlarmed L run s = { s with
    control := (slipAlarmed L run s).control, attention := (slipAlarmed L run s).attention } := by
  unfold slipAlarmed
  split
  · obtain ⟨a, k, frame⟩ := haltReason_frame .trackSlip L.slipAlarm s
    rw [frame]
  · rfl

/-- The state as a position step examines the stations (R3, R4). -/
def State.stepped (s : State) : State :=
  { s with tracking := { s.tracking with residue := 0, position := s.tracking.position + 1 } }

theorem exec_encoderPulse_of_below (released : s.resetHeld = false) (below : s.tracking.residue + 1 < s.divider) :
    exec .encoderPulse s = .next { s with tracking := { s.tracking with residue := s.tracking.residue + 1 } } :=
  (next_unlessReset released _).trans (congrArg Host.Outcome.next (if_neg (not_le.mpr below)))

theorem exec_encoderPulse_of_due (released : s.resetHeld = false) (due : s.divider ≤ s.tracking.residue + 1) :
    exec .encoderPulse s = .next (positionStep (s.setTracking { s.tracking with residue := 0 })) :=
  (next_unlessReset released _).trans (congrArg Host.Outcome.next (if_pos due))

theorem exec_encoderPulse_of_no_layout (released : s.resetHeld = false) (due : s.divider ≤ s.tracking.residue + 1)
    (none : s.store.layout = none) : exec .encoderPulse s = .next s.stepped := by
  rw [exec_encoderPulse_of_due released due, positionStep]
  dsimp only [setTracking_store]
  rw [none]
  rfl

theorem exec_encoderPulse_of_layout {L : Layout} (released : s.resetHeld = false) (layout : s.store.layout = some L)
    (due : L.divider ≤ s.tracking.residue + 1) : exec .encoderPulse s = .next (examineStations L s.stepped) := by
  have own : s.divider ≤ s.tracking.residue + 1 := by rw [State.divider, layout]; exact due
  rw [exec_encoderPulse_of_due released own, positionStep]
  dsimp only [setTracking_store]
  rw [layout]
  rfl

/-- What a position step leaves of the rest of the part (R3, R4, R172). -/
theorem exec_encoderPulse_leaves (released : s.resetHeld = false) (due : s.divider ≤ s.tracking.residue + 1) :
    ∃ t, exec .encoderPulse s = .next t ∧ t.tracking.residue = 0 ∧ t.tracking.position = s.tracking.position + 1 ∧
      t.tracking.serial = s.tracking.serial ∧ t.links = s.links ∧ t.reader = s.reader ∧ t.code = s.code ∧ t.pins = s.pins ∧
      (s.control.state = .config ∨ s.control.state = .ready → t.control.state = s.control.state) := by
  cases layout : s.store.layout with
  | none => exact ⟨_, exec_encoderPulse_of_no_layout released due layout, rfl, rfl, rfl, rfl, rfl, rfl, rfl, fun _ => rfl⟩
  | some L =>
    have own : L.divider ≤ s.tracking.residue + 1 := by rw [State.divider, layout] at due; exact due
    obtain ⟨position, residue, serial⟩ := examineStations_counters L s.stepped
    have halts := (examineStations_works L s.stepped).control
    obtain ⟨n, t, w, g, l, a, k, d, st, frame⟩ := examineStations_frame L s.stepped
    refine ⟨_, exec_encoderPulse_of_layout released layout own, residue, position, serial, ?_, ?_, ?_, ?_, fun idle => ?_⟩
    · rw [frame]; rfl
    · rw [frame]; rfl
    · rw [frame]; rfl
    · rw [frame]; rfl
    · rcases halts with ⟨same, -⟩ | ⟨run, -⟩
      · exact same
      · have run : s.control.state = .run := run
        rw [run] at idle
        rcases idle with idle | idle <;> cases idle

end

/-- Settles O27: the pulse and the step, the orders of the passes, and then each pass. -/
theorem encoderPulsesAndPasses : Obligations.EncoderPulsesAndPasses := by
  refine ⟨fun s released => ⟨exec_encoderPulse_of_below released, exec_encoderPulse_of_no_layout released,
      exec_encoderPulse_leaves released⟩,
    fun L s released layout due => ⟨_, exec_encoderPulse_of_layout released layout due, examineStations_clear L s.stepped⟩,
    fun L s released layout due => ?_, fun L s => ?_, fun L s => ?_, fun L s => ?_, fun s => ?_⟩
  · intro stepped chosen bridged gives p r g b
    have run := exec_encoderPulse_of_layout released layout due
    have same : bridgedDue L s.stepped = true ↔ bridged := bridgedDue_iff L s.stepped
    refine ⟨fun none => run.trans (congrArg Host.Outcome.next (examineStations_of_not_bridged L (mt same.mp none))), fun due => ?_⟩
    rcases examineStations_of_bridged L (same.mpr due) with e | e | e | e
    · exact .inl (run.trans (congrArg Host.Outcome.next e))
    · exact .inr (.inl (run.trans (congrArg Host.Outcome.next e)))
    · exact .inr (.inr (.inl (run.trans (congrArg Host.Outcome.next e))))
    · exact .inr (.inr (.inr (run.trans (congrArg Host.Outcome.next e))))
  · intro t past seen k working run alarm
    obtain ⟨marked, counted⟩ := markMissed_takeWhile (pastPlatform L s.tracking.position) s.tracking.queue
    simp only [pastPlatform, decide_eq_true_iff, markedMissed_eq] at marked counted
    have own : t = (slipAlarmed L run s).setTracking { s.tracking with
        queue := seen.map (fun c => if c.stage = .filled then
          { c with stage := .missed, reasons := addReason .missed c.reasons } else c) ++ s.tracking.queue.dropWhile past
        slip := run } := by
      have e := platformPass_eq L s
      dsimp only at e
      rw [counted, slipRun_eq, marked] at e
      exact e
    clear_value t
    subst own
    obtain ⟨alarmed, still⟩ := slipAlarmed_effects L run s
    refine ⟨?_, rfl, alarmed, fun none => ?_⟩
    · rw [slipAlarmed_frame]; rfl
    · rw [still none]; exact ⟨rfl, rfl⟩
  · have marked := markUnread_takeWhile s.store (pastReader L s.tracking.position) s.tracking.queue
    simp only [pastReader, decide_eq_true_iff, readAs_noRead] at marked
    exact congrArg s.setQueue marked
  · refine ⟨wholeGatePass_of_empty L, fun c rest queue => ⟨fun short => ?_, fun far => ?_⟩⟩
    · exact (wholeGatePass_of_head L queue).trans (if_neg (not_le.mpr short))
    · exact (wholeGatePass_of_head L queue).trans (if_pos far)
  · refine ⟨fun other => endWithCause_of_other _ other, fun w dwell free => endWithCause_of_unbound _ dwell free,
      fun w n ahead c rest dwell bound queue first own => endWithCause_of_bound _ dwell bound queue first own.1 own.2⟩

end Sys2Proof.Machine

/-! The blocking edge of the eye: claims, orphans, and the states without arrivals (O28, O29). -/

namespace Sys2Proof.Machine

/-! ## The platform pass of an arrival (R24) -/

section
variable {s : State} {L : Layout} {ahead behind : List CanRecord} {c : CanRecord}

theorem markMissed_of_ahead {late : CanRecord → Bool} (none : ∀ a ∈ ahead, a.stage ≠ .filled) (behind : List CanRecord) :
    markMissed late (ahead ++ behind) = ahead ++ markMissed late behind ∧
      countMissed late (ahead ++ behind) = countMissed late behind := by
  induction ahead with
  | nil => exact ⟨rfl, rfl⟩
  | cons a ahead ih =>
    obtain ⟨first, others⟩ := List.forall_mem_cons.mp none
    obtain ⟨marked, counted⟩ := ih others
    rw [List.cons_append, markMissed, countMissed, if_neg first, if_neg first]
    exact ⟨congrArg (a :: ·) marked, counted⟩

/-- The records from the oldest FILLED one on, which is not late. -/
def onTime (late : CanRecord → Bool) (behind : List CanRecord) : Prop :=
  behind = [] ∨ ∃ c rest, behind = c :: rest ∧ c.stage = .filled ∧ late c = false

theorem markMissed_of_onTime {late : CanRecord → Bool} (early : onTime late behind) :
    markMissed late behind = behind ∧ countMissed late behind = 0 := by
  rcases early with rfl | ⟨c, rest, rfl, filled, early⟩
  · exact ⟨rfl, rfl⟩
  · simp [markMissed, countMissed, filled, early]

/-- With no late FILLED record the platform pass changes nothing. -/
theorem platformPass_of_none (marked : markMissed (pastPlatform L s.tracking.position) s.tracking.queue = s.tracking.queue)
    (counted : countMissed (pastPlatform L s.tracking.position) s.tracking.queue = 0) : platformPass L s = s := by
  have e := platformPass_eq L s
  dsimp only at e
  have still : (if s.control.state.working = true then slipAfter s.tracking.slip 0 else s.tracking.slip) = s.tracking.slip := by
    simp [slipAfter]
  rw [marked, counted, still, slipAlarmed, if_neg (by omega)] at e
  exact e

theorem platformPass_of_onTime (queue : s.tracking.queue = ahead ++ behind) (none : ∀ a ∈ ahead, a.stage ≠ .filled)
    (early : onTime (pastPlatform L s.tracking.position) behind) : platformPass L s = s := by
  obtain ⟨marked, counted⟩ := markMissed_of_ahead (late := pastPlatform L s.tracking.position) none behind
  obtain ⟨marked', counted'⟩ := markMissed_of_onTime early
  exact platformPass_of_none (by rw [queue, marked, marked']) (by rw [queue, counted, counted'])

theorem platformPass_tracking (L : Layout) (s : State) : ∃ run, (platformPass L s).tracking = { s.tracking with
    queue := markMissed (pastPlatform L s.tracking.position) s.tracking.queue, slip := run } :=
  ⟨_, congrArg State.tracking (platformPass_eq L s)⟩

/-- A second pass at the same position changes nothing. -/
theorem platformPass_platformPass (L : Layout) (s : State) : platformPass L (platformPass L s) = platformPass L s := by
  obtain ⟨run, tracking⟩ := platformPass_tracking L s
  obtain ⟨marked, counted⟩ := markMissed_idem (pastPlatform L s.tracking.position) s.tracking.queue
  exact platformPass_of_none (by rw [tracking]; exact marked) (by rw [tracking]; exact counted)

/-- The state with the eye blocked. -/
def State.blocked (s : State) : State := { s with pins := { s.pins with eye := true } }

theorem haltReason_blocked (c : Cause) (d : Int) (s : State) : haltReason c d s.blocked = (haltReason c d s).blocked := by
  obtain ⟨a, k, frame⟩ := haltReason_frame c d s
  exact (haltReason_aside c d { s.pins with eye := true } s.tracking s.weigh s).trans (by rw [frame]; rfl)

theorem slipAlarmed_blocked (L : Layout) (run : Nat) (s : State) :
    slipAlarmed L run s.blocked = (slipAlarmed L run s).blocked := by
  unfold slipAlarmed
  by_cases alarm : s.tracking.slip < L.slipAlarm ∧ L.slipAlarm ≤ run
  · rw [if_pos alarm, ← haltReason_blocked]
    exact if_pos alarm
  · rw [if_neg alarm]
    exact if_neg alarm

theorem platformPass_blocked (L : Layout) (s : State) : platformPass L s.blocked = (platformPass L s).blocked := by
  rw [platformPass_eq L s, platformPass_eq L s.blocked, slipAlarmed_blocked]
  rfl

/-! ## The arrival (R22 to R28) -/

/-- The oldest FILLED record of the queue. -/
def oldestFilled (q : List CanRecord) : Option CanRecord := q.find? (fun c => c.stage == .filled)

theorem arrive_of_claim (passed : platformPass L s = s) (oldest : oldestFilled s.tracking.queue = some c)
    (inside : (L.platformDistance : Int) - L.platformWindow ≤ c.elapsed s.tracking.position) : arrive L s = claim c s := by
  unfold oldestFilled at oldest
  rw [arrive, passed, oldest]
  exact if_pos inside

/-- An arrival that finds no FILLED record in its window (R25, R26). -/
theorem arrive_of_orphan (passed : platformPass L s = s) (short : ∀ c, oldestFilled s.tracking.queue = some c →
    c.elapsed s.tracking.position < (L.platformDistance : Int) - L.platformWindow) : arrive L s = makeOrphan L s := by
  unfold oldestFilled at short
  rw [arrive, passed]
  split
  · next c oldest => exact if_neg (not_le.mpr (short c oldest))
  · rfl

theorem arrive_platformPass (L : Layout) (s : State) : arrive L (platformPass L s) = arrive L s := by
  rw [arrive, platformPass_platformPass]
  rfl

theorem exec_eyeBlockingEdge (released : s.resetHeld = false) : exec .eyeBlockingEdge s = .next (blockEye s.blocked) :=
  next_unlessReset (s := s.blocked) released blockEye

theorem exec_eyeBlockingEdge_of_arrival (released : s.resetHeld = false) (works : s.control.state = .run ∨ s.control.state = .halt)
    (layout : s.store.layout = some L) (empty : s.weigh.platform = .empty) :
    exec .eyeBlockingEdge s = .next (startWeighing (arrive L s.blocked)) := by
  have empty' : s.blocked.weigh.platform = .empty := empty
  have layout' : s.blocked.store.layout = some L := layout
  rw [exec_eyeBlockingEdge released, blockEye, empty']
  dsimp only
  rw [if_pos (show s.blocked.control.state.working = true from (working_iff _).mpr works), layout']

theorem exec_eyeBlockingEdge_of_idle (released : s.resetHeld = false) (idle : s.control.state = .config ∨ s.control.state = .ready)
    (empty : s.weigh.platform = .empty) : exec .eyeBlockingEdge s =
      .next (abortZeroByEye (s.blocked.setWeigh { s.weigh with platform := .waitClear })) := by
  have empty' : s.blocked.weigh.platform = .empty := empty
  have still : ¬s.blocked.control.state.working = true := by
    rw [working_iff]
    show ¬(s.control.state = .run ∨ s.control.state = .halt)
    rcases idle with idle | idle <;> rw [idle] <;> decide
  rw [exec_eyeBlockingEdge released, blockEye, empty']
  dsimp only
  rw [if_neg still]
  rfl

theorem abortZeroByEye_of_spare (spare : ¬(s.weigh.capture.outcome = .inProgress ∧ s.weigh.capture.kind = .zero)) :
    abortZeroByEye s = s := by
  unfold abortZeroByEye
  split
  · next kind => exact abortCapture_of_none _ fun runs => spare ⟨runs, kind⟩
  · rfl

theorem blockEye_of_other (other : s.weigh.platform ≠ .empty) : blockEye s = s := by
  unfold blockEye
  split
  · next empty => exact absurd empty other
  · rfl

theorem oldestFilled_of_ahead {rest : List CanRecord} (none : ∀ a ∈ ahead, a.stage ≠ .filled) (filled : c.stage = .filled) :
    oldestFilled (ahead ++ c :: rest) = some c :=
  find_of_ahead (fun a mem => by simpa using none a mem) (by simp [filled])

end

/-- Settles O28: a claim, the late records of an arrival, and the states without arrivals. -/
theorem eyeBlocks : Obligations.EyeBlocks := by
  refine ⟨fun L c ahead rest s released works layout empty queue none filled inside due => ?_,
    fun L s released works layout empty => ?_,
    fun s released idle => ⟨fun empty spare => ?_, fun empty runs kind => ?_, fun off => ?_⟩⟩
  · intro w
    have early : onTime (pastPlatform L s.blocked.tracking.position) (c :: rest) :=
      .inr ⟨c, rest, rfl, filled, decide_eq_false (not_lt.mpr due)⟩
    have passed := platformPass_of_onTime (s := s.blocked) queue none early
    have oldest : oldestFilled s.blocked.tracking.queue = some c := (congrArg oldestFilled queue).trans (oldestFilled_of_ahead none filled)
    have claimed : mapFirst (fun q : CanRecord => q.stage == .filled) (fun q => { q with stage := .onPlatform })
        s.tracking.queue = ahead ++ { c with stage := .onPlatform } :: rest := by
      rw [queue]
      exact mapFirst_of_ahead _ (fun a mem => by simpa using none a mem) (by simp [filled])
    rw [exec_eyeBlockingEdge_of_arrival released works layout empty, arrive_of_claim passed oldest inside, ← claimed]
    rfl
  · have halts := (platformPass_works L s).control
    have works' : (platformPass L s).control.state = .run ∨ (platformPass L s).control.state = .halt := by
      rw [← working_iff, Control.halts_working halts, working_iff]
      exact works
    obtain ⟨t, a, k, frame⟩ := platformPass_frame L s
    rw [exec_eyeBlockingEdge_of_arrival released works layout empty,
      exec_eyeBlockingEdge_of_arrival (s := platformPass L s) (by rw [frame]; exact released) works' (by rw [frame]; exact layout)
        (by rw [frame]; exact empty), ← platformPass_blocked, arrive_platformPass]
  · have spared : abortZeroByEye (s.blocked.setWeigh { s.weigh with platform := .waitClear }) =
        s.blocked.setWeigh { s.weigh with platform := .waitClear } := abortZeroByEye_of_spare spare
    rw [exec_eyeBlockingEdge_of_idle released idle empty, spared]
    rfl
  · rw [exec_eyeBlockingEdge_of_idle released idle empty]
    exact congrArg Host.Outcome.next ((if_pos kind).trans (abortCapture_of_capture .eye runs))
  · rw [exec_eyeBlockingEdge released]
    exact congrArg Host.Outcome.next (blockEye_of_other (by rw [show s.blocked.weigh.platform = _ from off]; exact nofun))

/-! ## Orphans (R25 to R29, R44) -/

section
variable {s : State} {L : Layout} {ahead behind : List CanRecord}

theorem heldBack_eq (before : Option CanRecord) (x : Position) : heldBack before x =
    match before with
    | some b => if 0 < posDiff b.discharge x then b.discharge else x
    | none => x := by
  cases before with
  | none => rfl
  | some b => rfl

/-- The queue parts before its oldest FILLED record. -/
theorem filledParts (none : ∀ a ∈ ahead, a.stage ≠ .filled)
    (head : behind = [] ∨ ∃ c rest, behind = c :: rest ∧ c.stage = .filled) :
    beforeFilled (ahead ++ behind) = ahead ∧ fromFilled (ahead ++ behind) = behind := by
  have passed : ∀ a ∈ ahead, (a.stage != .filled) = true := fun a mem => by simpa using none a mem
  rw [beforeFilled, fromFilled, List.takeWhile_append_of_pos passed, List.dropWhile_append_of_pos passed]
  rcases head with rfl | ⟨c, rest, rfl, filled⟩
  · simp
  · simp [filled]

theorem makeOrphan_of_full (full : 192 ≤ s.tracking.queue.length) : makeOrphan L s = (none, haltReason .trackOverflow 0 s) :=
  if_pos full

theorem makeOrphan_of_room (room : s.tracking.queue.length < 192) (queue : s.tracking.queue = ahead ++ behind)
    (none : ∀ a ∈ ahead, a.stage ≠ .filled) (head : behind = [] ∨ ∃ c rest, behind = c :: rest ∧ c.stage = .filled) :
    makeOrphan L s = (some s.tracking.serial, slipAdd L (joinQueue (ahead ++
      orphanRecord s (heldBack ahead.getLast? (orphanEstimate L s.tracking.position)) :: behind) s)) := by
  obtain ⟨before, after⟩ := filledParts none head
  rw [← queue] at before after
  rw [makeOrphan, before, after]
  exact if_neg (not_le.mpr room)

end

/-- Settles O29: the arrival marks nothing and claims nothing, so it makes an orphan or overflows. -/
theorem arrivalWithoutClaim : Obligations.ArrivalWithoutClaim := by
  intro L ahead behind s released works layout empty queue none short estimate discharge w
  have head : behind = [] ∨ ∃ c rest, behind = c :: rest ∧ c.stage = .filled := by
    rcases short with nil | ⟨c, rest, cons, filled, -⟩
    · exact .inl nil
    · exact .inr ⟨c, rest, cons, filled⟩
  have early : onTime (pastPlatform L s.blocked.tracking.position) behind := by
    rcases short with nil | ⟨c, rest, cons, filled, short⟩
    · exact .inl nil
    · refine .inr ⟨c, rest, cons, filled, decide_eq_false (not_lt.mpr ?_)⟩
      show c.elapsed s.tracking.position ≤ _
      omega
  have unclaimed : ∀ c, oldestFilled s.blocked.tracking.queue = some c →
      c.elapsed s.blocked.tracking.position < (L.platformDistance : Int) - L.platformWindow := by
    intro c oldest
    rw [show s.blocked.tracking.queue = ahead ++ behind from queue] at oldest
    rcases short with nil | ⟨d, rest, cons, filled, short⟩
    · rw [nil, List.append_nil] at oldest
      have filled : c.stage = .filled := by simpa using List.find?_some oldest
      exact absurd filled (none c (List.mem_of_find?_eq_some oldest))
    · rw [cons, oldestFilled_of_ahead none filled] at oldest
      cases oldest
      exact short
  have passed := platformPass_of_onTime (s := s.blocked) queue none early
  have run := exec_eyeBlockingEdge_of_arrival released works layout empty
  rw [arrive_of_orphan passed unclaimed] at run
  have held : heldBack ahead.getLast? (orphanEstimate L s.blocked.tracking.position) = discharge := heldBack_eq ..
  refine ⟨fun room => ?_, fun full => ?_⟩
  · rw [makeOrphan_of_room (s := s.blocked) room queue none head] at run
    rw [held, slipAdd_eq, slipAlarmed_frame] at run
    obtain ⟨alarmed, still⟩ := slipAlarmed_effects L (min 255 (s.tracking.slip + 1))
      (joinQueue (ahead ++ orphanRecord s.blocked discharge :: behind) s.blocked)
    refine ⟨_, run, rfl, rfl, rfl, rfl, rfl, rfl, rfl, rfl, rfl, rfl, fun below reached => ?_, fun none => ?_⟩
    · obtain ⟨pending, halted⟩ := alarmed ⟨below, reached⟩
      have top : min 255 (s.tracking.slip + 1) = L.slipAlarm := by omega
      exact ⟨top ▸ pending, halted⟩
    · exact ⟨(congrArg State.control (still none) :), (congrArg State.attention (still none) :)⟩
  · rw [makeOrphan_of_full (s := s.blocked) full] at run
    obtain ⟨pending, halted⟩ := haltReason_effects (c := .trackOverflow) nofun 0 s.blocked
    obtain ⟨a, k, frame⟩ := haltReason_frame .trackOverflow 0 s.blocked
    refine ⟨_, run, ?_, ?_, ?_, ?_, pending, halted⟩
    · rw [startWeighing, frame]; rfl
    · rw [startWeighing, frame]; rfl
    · rw [startWeighing, frame]; rfl
    · rw [startWeighing, frame]; rfl

end Sys2Proof.Machine

/-! Fill reports (O30, O31). -/

namespace Sys2Proof.Machine

/-! ## The checks of a FILL REPORT (R10) -/

section
variable {v d1 d0 code : Byte} {x : Position} {s : State}

theorem serve_fillReport {p : List Byte} (length : lengthOk .fillReport p = true)
    (awaits : s.awaits ⟨.filler, Kind.fillReport.code, p, some x⟩) :
    exec (.fillReport .filler p x) s = .next (answer .filler 0x01 (ownFillReport p x s).1 (ownFillReport p x s).2) :=
  next_serve_of_awaits _ awaits rfl length

theorem fillOutOfRange_iff : fillOutOfRange [v, d1, d0, code] s = true ↔
    v.toNat < 1 ∨ s.valveCount < v.toNat ∨ 3 < code.toNat ∨ (code ≠ 3 ∧ d1 = 0 ∧ d0 = 0) := by
  have other : code.toNat ≠ 3 ↔ code ≠ 3 := not_congr ⟨fun h => BitVec.eq_of_toNat_eq h, fun h => by rw [h]; rfl⟩
  have none : d1.toNat * 256 + d0.toNat = 0 ↔ d1 = 0 ∧ d0 = 0 := by
    rw [Nat.add_eq_zero_iff, Nat.mul_eq_zero, or_iff_left (by omega : ¬256 = 0)]
    exact and_congr (BitVec.toNat_eq (y := 0#8)).symm (BitVec.toNat_eq (y := 0#8)).symm
  have valve : s.valveInRange v.toNat = false ↔ v.toNat < 1 ∨ s.valveCount < v.toNat := by
    rw [← Bool.not_eq_true, valveInRange_iff]
    omega
  rw [← other, ← none, ← or_assoc, ← valve]
  show (!s.valveInRange v.toNat || decide (3 < code.toNat) || (code.toNat != 3 && d1.toNat * 256 + d0.toNat == 0)) = true ↔ _
  simp [or_assoc]

theorem ownFillReport_of_idle (p : List Byte) (x : Position) (idle : s.control.state = .config ∨ s.control.state = .ready) :
    ownFillReport p x s = refuse .state s := by
  have still : s.control.state.working = false := by rcases idle with idle | idle <;> rw [idle] <;> rfl
  rw [ownFillReport, still]
  rfl

theorem ownFillReport_of_range {p : List Byte} (x : Position) (works : s.control.state = .run ∨ s.control.state = .halt)
    (out : fillOutOfRange p s = true) : ownFillReport p x s = refuse .range s := by
  rw [ownFillReport, (working_iff _).mpr works, out]
  rfl

/-- A FILL REPORT in range, by its status (R11, R12, R13). -/
theorem ownFillReport_of_taken {p : List Byte} (x : Position) (works : s.control.state = .run ∨ s.control.state = .halt)
    (inside : ¬fillOutOfRange p s = true) : ownFillReport p x s =
      if fillCode p = 3 then fillServed .ok none (fillValve p) s
      else if fillCode p = 2 then fillRecord p x (faultBlock (fillValve p) s)
      else fillRecord p x s := by
  rw [ownFillReport, (working_iff _).mpr works]
  exact if_neg inside

/-! ## The dose served, and the record made (R11, R14, R16, R81, R103) -/

/-- What the answer carries of an entry (R16). -/
def Valve.figures (s : State) (e : Valve) : List Byte := u16 (s.doseOf e) ++ u8 e.state.code

/-- The dose unit after the dose of valve `v` has been recorded as served (R103). -/
def State.doseServed (s : State) (v : Nat) : DoseUnit :=
  { s.dose with valves := s.dose.valves.set (v - 1) (Valve.served s (s.valve v)) }

theorem fillServed_none (st : Status) (v : Nat) (s : State) : fillServed st none v s =
    ({ status := st, payload := [0, 0, 0] ++ (s.valve v).figures s }, s.setValve v (Valve.served s (s.valve v))) := rfl

theorem fillServed_some (st : Status) (n : Serial) (v : Nat) (s : State) : fillServed st (some n) v s =
    ({ status := st, payload := 1 :: u16 n.toNat ++ (s.valve v).figures s }, s.setValve v (Valve.served s (s.valve v))) := rfl

theorem doseOf_joinQueue (q : List CanRecord) (s : State) (e : Valve) : (joinQueue q s).doseOf e = s.doseOf e :=
  doseOf_congr e (recordMade_recipe _) rfl

theorem doseOf_haltReason (c : Cause) (d : Int) (s : State) (e : Valve) : (haltReason c d s).doseOf e = s.doseOf e := by
  obtain ⟨a, k, frame⟩ := haltReason_frame c d s
  rw [frame]
  rfl

theorem fillRecord_of_room {p : List Byte} {x : Position} (room : s.tracking.queue.length < 192) : fillRecord p x s =
    fillServed .ok (some s.tracking.serial) (fillValve p) (joinQueue (s.tracking.queue ++ [filledRecord p x s]) s) :=
  if_neg (not_le.mpr room)

theorem fillRecord_of_full {p : List Byte} {x : Position} (full : 192 ≤ s.tracking.queue.length) : fillRecord p x s =
    fillServed .queueFull none (fillValve p) (haltReason .trackOverflow (fillValve p) s) := if_pos full

/-- A record made in the queue, with the dose of its valve recorded as served. -/
theorem fillRecord_of_room_eq {p : List Byte} {x : Position} (room : s.tracking.queue.length < 192) : fillRecord p x s =
    (.ok (1 :: u16 s.tracking.serial.toNat ++ (s.valve (fillValve p)).figures s), { s with
      tracking := { s.tracking with queue := s.tracking.queue ++ [filledRecord p x s], serial := s.tracking.serial + 1 }
      store := { s.store with current := s.store.current.map (fun h => { h with count := h.count + 1 }) }
      dose := s.doseServed (fillValve p) }) := by
  rw [fillRecord_of_room room, fillServed_some, Valve.figures, Valve.served, doseOf_joinQueue]
  rfl

/-- What a FILL REPORT that needs a record does at a full queue (R15, R16). -/
theorem fillRecord_of_full_effects {p : List Byte} {x : Position} (full : 192 ≤ s.tracking.queue.length) : ∃ t,
    fillRecord p x s = ({ status := .queueFull, payload := [0, 0, 0] ++ (s.valve (fillValve p)).figures s }, t) ∧
      t.tracking = s.tracking ∧ t.store = s.store ∧ t.canList = s.canList ∧
      t.dose = s.doseServed (fillValve p) ∧
      t.pendingOnAll .trackOverflow (fillValve p) ∧ t.haltedBy s .trackOverflow := by
  obtain ⟨pending, halted⟩ := haltReason_effects (c := .trackOverflow) nofun (fillValve p) s
  obtain ⟨a, k, frame⟩ := haltReason_frame .trackOverflow (fillValve p) s
  have valve : (haltReason .trackOverflow (fillValve p) s).valve (fillValve p) = s.valve (fillValve p) := by rw [frame]; rfl
  refine ⟨(haltReason .trackOverflow (fillValve p) s).setValve (fillValve p) (Valve.served s (s.valve (fillValve p))), ?_,
    ?_, ?_, ?_, ?_, pending, halted⟩
  · rw [fillRecord_of_full full, fillServed_none, valve, Valve.figures, Valve.served, doseOf_haltReason]
    rfl
  · rw [frame]; rfl
  · rw [frame]; rfl
  · rw [frame]; rfl
  · rw [frame]; rfl

theorem recordFillStatus_eq (vs : ValveState) (code : Nat) : recordFillStatus vs code =
    if vs.holder?.isSome then .blockedFill else if code = 1 then .short else .normal := by
  cases vs <;> rfl

/-! ## The valve blocked by a fault (R12, R137) -/

theorem faultBlock_of_blocked {v : Nat} {l : Link} (blocked : (s.valve v).state = .blocked l) : faultBlock v s = s := by
  rw [faultBlock, blocked]

theorem faultBlock_of_free {v : Nat} (free : (s.valve v).state.holder? = none) :
    faultBlock v s = s.setValve v { s.valve v with state := .blocked .filler } := by
  unfold faultBlock
  split
  · next l blocked => rw [blocked] at free; cases free
  · rfl

/-- The entry of a valve blocked by a fault, its dose recorded as served (R12, R103, R137). -/
def Valve.faulted (e : Valve) : Valve := { e with state := .blocked (e.state.holder?.getD .filler), lastDose := 0 }

/-- What a fault leaves of the valve table, whose entry of the valve is BLOCKED (R12, R137). -/
theorem faultBlock_table {v : Nat} (whole : s.tableWhole) (first : 1 ≤ v) (last : v ≤ s.valveCount) :
    ∃ vs, faultBlock v s = { s with dose := { s.dose with valves := vs } } ∧
      (faultBlock v s).valve v = { s.valve v with state := .blocked ((s.valve v).state.holder?.getD .filler) } ∧
      ∀ e, vs.set (v - 1) e = s.dose.valves.set (v - 1) e := by
  obtain ⟨length, most⟩ := whole
  cases state : (s.valve v).state with
  | blocked l =>
    rw [faultBlock_of_blocked state]
    refine ⟨s.dose.valves, rfl, ?_, fun _ => rfl⟩
    rw [show (.blocked ((ValveState.blocked l).holder?.getD .filler) : ValveState) = (s.valve v).state from state.symm]
  | _ =>
    rw [faultBlock_of_free (by rw [state]; rfl)]
    exact ⟨_, rfl, valve_setValve_same s _ first (by omega), fun e => List.set_set ..⟩

theorem served_of_blocked {e : Valve} {l : Link} (blocked : e.state = .blocked l) :
    e.figures s = [0, 0, 4] ∧ Valve.served s e = { e with lastDose := 0 } := by
  rw [Valve.figures, Valve.served, doseOf_of_blocked s blocked, blocked]
  exact ⟨rfl, rfl⟩

theorem figures_of_fault {v : Nat} (whole : s.tableWhole) (first : 1 ≤ v) (last : v ≤ s.valveCount) :
    ((faultBlock v s).valve v).figures (faultBlock v s) = [0, 0, 4] ∧
      (faultBlock v s).doseServed v = { s.dose with valves := s.dose.valves.set (v - 1) (s.valve v).faulted } := by
  obtain ⟨vs, frame, valve, set⟩ := faultBlock_table whole first last
  obtain ⟨figures, served⟩ := served_of_blocked (s := faultBlock v s) (congrArg Valve.state valve)
  refine ⟨figures, ?_⟩
  rw [State.doseServed, served, valve, frame]
  exact congrArg (fun vs => { s.dose with valves := vs }) (set _)

theorem not_outOfRange (first : 1 ≤ v.toNat) (last : v.toNat ≤ s.valveCount) (known : code.toNat ≤ 3)
    (dosed : code = 3 ∨ ¬(d1 = 0 ∧ d0 = 0)) : ¬fillOutOfRange [v, d1, d0, code] s = true := by
  rw [fillOutOfRange_iff]
  rintro (below | above | unknown | ⟨other, none⟩)
  · omega
  · omega
  · omega
  · exact dosed.elim other (absurd none)

/-- The record of a fill report, by the valve and the status (R11, R14, R81). -/
theorem filledRecord_eq : filledRecord [v, d1, d0, code] x s =
    { serial := s.tracking.serial, origin := .filled, valve := some v.toNat, generation := s.store.currentGeneration,
      discharge := heldBack s.tracking.queue.getLast? x, doseUsed := some (d1.toNat * 256 + d0.toNat),
      fillStatus := if (s.valve v.toNat).state.holder?.isSome then .blockedFill else if code = 1 then .short else .normal,
      stage := .filled, reading := none, code := none, codeStatus := .notYet,
      reasons := if (s.valve v.toNat).state.holder?.isSome then [.blockedFill] else if code = 1 then [.fillShort] else [],
      verdict := none } := by
  have short : code.toNat = 1 ↔ code = 1 := ⟨fun h => BitVec.eq_of_toNat_eq h, fun h => by rw [h]; rfl⟩
  have status : recordFillStatus (s.valve v.toNat).state code.toNat =
      if (s.valve v.toNat).state.holder?.isSome then .blockedFill else if code = 1 then .short else .normal :=
    (recordFillStatus_eq ..).trans (if_congr .rfl rfl (if_congr short rfl rfl))
  have reasons := congrArg fillReasons status
  rw [apply_ite fillReasons, apply_ite fillReasons] at reasons
  calc filledRecord [v, d1, d0, code] x s
    _ = { serial := s.tracking.serial, origin := .filled, valve := some v.toNat, generation := s.store.currentGeneration,
          discharge := heldBack s.tracking.queue.getLast? x, doseUsed := some (d1.toNat * 256 + d0.toNat),
          fillStatus := recordFillStatus (s.valve v.toNat).state code.toNat, stage := .filled, reading := none, code := none,
          codeStatus := .notYet, reasons := fillReasons (recordFillStatus (s.valve v.toNat).state code.toNat),
          verdict := none } := rfl
    _ = _ := by rw [reasons, status]; rfl

/-- A FILL REPORT with NORMAL or SHORT goes on to make its record. -/
theorem ownFillReport_of_filled (works : s.control.state = .run ∨ s.control.state = .halt) (first : 1 ≤ v.toNat)
    (last : v.toNat ≤ s.valveCount) (status : code = 0 ∨ code = 1) (dosed : ¬(d1 = 0 ∧ d0 = 0)) :
    ownFillReport [v, d1, d0, code] x s = fillRecord [v, d1, d0, code] x s := by
  have known : code.toNat ≤ 1 := by rcases status with rfl | rfl <;> decide
  rw [ownFillReport_of_taken x works (not_outOfRange first last (by omega) (.inr dosed))]
  exact (if_neg (by show ¬code.toNat = 3; omega)).trans (if_neg (by show ¬code.toNat = 2; omega))

theorem ownFillReport_of_fault (works : s.control.state = .run ∨ s.control.state = .halt) (first : 1 ≤ v.toNat)
    (last : v.toNat ≤ s.valveCount) (dosed : ¬(d1 = 0 ∧ d0 = 0)) :
    ownFillReport [v, d1, d0, 2] x s = fillRecord [v, d1, d0, 2] x (faultBlock v.toNat s) :=
  ownFillReport_of_taken x works (not_outOfRange first last (by decide) (.inr dosed))

theorem ownFillReport_of_noCan (works : s.control.state = .run ∨ s.control.state = .halt) (first : 1 ≤ v.toNat)
    (last : v.toNat ≤ s.valveCount) : ownFillReport [v, d1, d0, 3] x s = fillServed .ok none v.toNat s :=
  ownFillReport_of_taken x works (not_outOfRange first last (by decide) (.inl rfl))

end

/-- Settles O30: the record of a can, and the record of a can under a faulty valve. -/
theorem fillReportMakesRecord : Obligations.FillReportMakesRecord := by
  refine ⟨fun v d1 d0 code x s awaits works first last status dosed room => ?_,
    fun v d1 d0 x s awaits works whole first last dosed room => ?_⟩
  · intro blocked e c
    have record : filledRecord [v, d1, d0, code] x s = c := by rw [filledRecord_eq, heldBack_eq] <;> rfl
    rw [serve_fillReport rfl awaits, ownFillReport_of_filled works first last status dosed, fillRecord_of_room_eq room, record]
    rfl
  · intro e
    obtain ⟨vs, frame, valve, -⟩ := faultBlock_table whole first last
    obtain ⟨figures, dose⟩ := figures_of_fault whole first last
    have fault : ((faultBlock v.toNat s).valve v.toNat).state.holder?.isSome = true := by rw [valve]; rfl
    have tracking : (faultBlock v.toNat s).tracking = s.tracking := by rw [frame]
    have room' : (faultBlock v.toNat s).tracking.queue.length < 192 := by rw [frame]; exact room
    rw [serve_fillReport rfl awaits, ownFillReport_of_fault works first last dosed, fillRecord_of_room_eq room',
      show fillValve [v, d1, d0, 2] = v.toNat from rfl, figures, dose, tracking]
    have blocked := filledRecord_eq (v := v) (d1 := d1) (d0 := d0) (code := 2) (x := x) (s := faultBlock v.toNat s)
    rw [if_pos fault, if_pos fault] at blocked
    refine ⟨_, filledRecord [v, d1, d0, 2] x (faultBlock v.toNat s), rfl, rfl, ?_⟩
    rw [blocked, frame]
    exact ⟨rfl, rfl, rfl, rfl, rfl, rfl, rfl, rfl, rfl⟩

/-- Settles O31: the refusals, NO_CAN, and a full queue. -/
theorem fillReportWithoutRecord : Obligations.FillReportWithoutRecord := by
  refine ⟨fun v d1 d0 code x s awaits => ⟨fun idle => ?_, fun works out => ?_⟩,
    fun v d1 d0 code x s awaits works first last => ?_, fun v d1 d0 x s awaits works whole first last dosed full => ?_⟩
  · rw [serve_fillReport rfl awaits, ownFillReport_of_idle _ x idle]
    rfl
  · rw [serve_fillReport rfl awaits, ownFillReport_of_range x works (fillOutOfRange_iff.mpr out)]
    rfl
  · intro e figures
    refine ⟨?_, fun status dosed full => ?_⟩
    · rintro rfl
      rw [serve_fillReport rfl awaits, ownFillReport_of_noCan works first last]
      rfl
    · obtain ⟨t, record, effects⟩ := fillRecord_of_full_effects (p := [v, d1, d0, code]) (x := x) full
      rw [serve_fillReport rfl awaits, ownFillReport_of_filled works first last status dosed, record]
      exact ⟨t, rfl, effects⟩
  · intro e
    obtain ⟨vs, frame, -, -⟩ := faultBlock_table whole first last
    obtain ⟨figures, dose⟩ := figures_of_fault whole first last
    have full' : 192 ≤ (faultBlock v.toNat s).tracking.queue.length := by rw [frame]; exact full
    obtain ⟨t, record, tracking, store, canList, dosed', pending, halted⟩ :=
      fillRecord_of_full_effects (p := [v, d1, d0, 2]) (x := x) full'
    rw [serve_fillReport rfl awaits, ownFillReport_of_fault works first last dosed, record,
      show fillValve [v, d1, d0, 2] = v.toNat from rfl, figures]
    rw [frame] at tracking store canList halted
    exact ⟨t, rfl, tracking, store, canList, dosed'.trans dose, pending, halted⟩

end Sys2Proof.Machine

/-! The can list (O45) and the confirm windows (O44): what an append reaches, what a take collects, and how windows close. -/

namespace Sys2Proof.Machine

/-! ## Appends (R94, R96) -/

section
variable {l : CanList}

theorem append_unread (m : CanSummary) (held : l.unread ≤ l.ring.length) (whole : l.ring.length ≤ 256) :
    (l.append m).unread = min 256 (l.unread + 1) := by
  unfold CanList.append ringSize
  split
  · simp only; omega
  · split <;> simp only <;> omega

theorem append_level (l : CanList) (m : CanSummary) : (l.append m).level = l.level ∧ (l.append m).armed = l.armed := by
  unfold CanList.append
  split
  · exact ⟨rfl, rfl⟩
  · split <;> exact ⟨rfl, rfl⟩

theorem reaches_append_iff (m : CanSummary) (held : l.unread ≤ l.ring.length) (whole : l.ring.length ≤ 256) :
    l.reaches (l.append m) = true ↔ l.unread < 256 ∧ l.armed = true ∧ l.level ≤ min 256 (l.unread + 1) := by
  obtain ⟨level, armed⟩ := append_level l m
  simp only [CanList.reaches, append_unread m held whole, level, armed, Bool.and_eq_true, decide_eq_true_eq]
  constructor
  · rintro ⟨⟨gains, on⟩, reached⟩
    exact ⟨by omega, on, reached⟩
  · rintro ⟨room, on, reached⟩
    exact ⟨⟨by omega, on⟩, reached⟩

end

/-! ## Takes and levels (R95, R96) -/

/-- The summaries `got` are what a take of `n` in a room collects: a front of the unread summaries, and why it stops (R95, R202). -/
def Collected (n room : Nat) (unread got : List CanSummary) : Prop :=
  ∃ later, unread = got ++ later ∧ got.length ≤ n ∧ (∀ m ∈ got, m.awaiting = false) ∧
    (got.flatMap summaryBytes).length ≤ room ∧
    (got.length < n → ∀ m more, later = m :: more →
      m.awaiting = true ∨ room < (got.flatMap summaryBytes).length + (summaryBytes m).length)

section
variable {n room : Nat} {unread got : List CanSummary} {m : CanSummary}

theorem Collected.nothing
    (stop : 0 < n → ∀ m more, unread = m :: more → m.awaiting = true ∨ room < (summaryBytes m).length) :
    Collected n room unread [] :=
  ⟨unread, rfl, Nat.zero_le n, by simp, by simp, by simpa using stop⟩

theorem Collected.cons (settled : m.awaiting = false) (fits : (summaryBytes m).length ≤ room)
    (rest : Collected n (room - (summaryBytes m).length) unread got) : Collected (n + 1) room (m :: unread) (m :: got) := by
  obtain ⟨later, split, most, none, within, stop⟩ := rest
  refine ⟨later, congrArg (m :: ·) split, Nat.succ_le_succ most, List.forall_mem_cons.mpr ⟨settled, none⟩, ?_,
    fun fewer x more same => ?_⟩
  · rw [List.flatMap_cons, List.length_append]; omega
  · refine (stop (Nat.lt_of_succ_lt_succ fewer) x more same).imp id fun large => ?_
    rw [List.flatMap_cons, List.length_append]; omega

end

theorem collected_collectSummaries (n room : Nat) (unread : List CanSummary) :
    Collected n room unread (collectSummaries n room unread) := by
  induction n generalizing room unread with
  | zero => exact .nothing fun none => absurd none (Nat.lt_irrefl 0)
  | succ n ih =>
    cases unread with
    | nil => exact .nothing fun _ m more same => absurd same.symm (List.cons_ne_nil m more)
    | cons m unread =>
      rw [collectSummaries]
      by_cases pending : m.awaiting = true
      · rw [if_pos pending]
        exact .nothing fun _ x _ same => .inl ((List.cons.inj same).1 ▸ pending)
      · rw [if_neg pending]
        by_cases fits : (summaryBytes m).length ≤ room
        · rw [if_pos fits]
          exact .cons (Bool.eq_false_iff.mpr pending) fits (ih ..)
        · rw [if_neg fits]
          exact .nothing fun _ x _ same => .inr ((List.cons.inj same).1 ▸ not_le.mp fits)

section
variable {s : State}

theorem serve_canListTake {n : Byte} (awaits : s.awaits ⟨.quality, Kind.canListTake.code, [n], none⟩) :
    exec (.canListTake .quality [n]) s =
      .next (answer .quality 0x17 (ownCanListTake [n] s).1 (ownCanListTake [n] s).2) :=
  next_serve_of_awaits _ awaits rfl rfl

theorem serve_listLevelSet {b1 b0 : Byte} (awaits : s.awaits ⟨.quality, Kind.listLevelSet.code, [b1, b0], none⟩) :
    exec (.listLevelSet .quality [b1, b0]) s =
      .next (answer .quality 0x18 (ownListLevelSet [b1, b0] s).1 (ownListLevelSet [b1, b0] s).2) :=
  next_serve_of_awaits _ awaits rfl rfl

theorem ownCanListTake_of_range {n : Byte} (out : n.toNat < 1 ∨ 8 < n.toNat) : ownCanListTake [n] s = (.refused .range, s) :=
  if_pos out

theorem ownCanListTake_of_count {n : Byte} (least : 1 ≤ n.toNat) (most : n.toNat ≤ 8) :
    let got := collectSummaries n.toNat 117 s.canList.unreadSummaries
    ownCanListTake [n] s = (.ok (u8 got.length ++ u16 (s.canList.unread - got.length) ++ got.flatMap summaryBytes),
      { s with canList := s.canList.taken got.length }) :=
  if_neg (show ¬(n.toNat < 1 ∨ 8 < n.toNat) by omega)

section
variable {b1 b0 : Byte}

theorem ownListLevelSet_of_range (out : b1.toNat * 256 + b0.toNat < 1 ∨ 256 < b1.toNat * 256 + b0.toNat) :
    ownListLevelSet [b1, b0] s = (.refused .range, s) := if_pos out

variable (least : 1 ≤ b1.toNat * 256 + b0.toNat) (most : b1.toNat * 256 + b0.toNat ≤ 256)
include least most

theorem ownListLevelSet_of_reached (reached : b1.toNat * 256 + b0.toNat ≤ s.canList.unread) :
    ownListLevelSet [b1, b0] s = (.ok [b1, b0], raiseOn .quality .canListLevel s.canList.unread
      { s with canList := { s.canList with level := b1.toNat * 256 + b0.toNat, armed := false } }) := by
  refine (if_neg (show ¬(b1.toNat * 256 + b0.toNat < 1 ∨ 256 < b1.toNat * 256 + b0.toNat) by omega)).trans ((if_pos reached).trans ?_)
  exact congrArg (fun bytes => (Reply.ok bytes, _)) (u16_bytes b1 b0)

theorem ownListLevelSet_of_short (short : s.canList.unread < b1.toNat * 256 + b0.toNat) :
    ownListLevelSet [b1, b0] s = (.ok [b1, b0],
      { s with canList := { s.canList with level := b1.toNat * 256 + b0.toNat, armed := true } }) := by
  refine (if_neg (show ¬(b1.toNat * 256 + b0.toNat < 1 ∨ 256 < b1.toNat * 256 + b0.toNat) by omega)).trans
    ((if_neg (not_le.mpr short)).trans ?_)
  exact congrArg (fun bytes => (Reply.ok bytes, _)) (u16_bytes b1 b0)

end

end

/-- Settles O45: an append by whether it reaches the level, a take by induction on what is left to collect. -/
theorem canListKeepsAndGives : Obligations.CanListKeepsAndGives := by
  refine ⟨fun m s held whole => ⟨fun room on reached => ?_, fun still => ?_, append_unread m held whole, append_ring _ m whole⟩,
    fun n s awaits => ⟨fun out => ?_, fun least most => ?_⟩, fun b1 b0 s awaits => ⟨fun out => ?_, fun least most reached => ?_,
    fun least most short => ?_⟩⟩
  · refine (if_pos ((reaches_append_iff m held whole).mpr ⟨room, on, reached⟩)).trans ?_
    exact congrArg (fun n : Nat => raiseOn .quality .canListLevel n _) (append_unread m held whole)
  · refine if_neg fun reaches => ?_
    obtain ⟨room, on, reached⟩ := (reaches_append_iff m held whole).mp reaches
    rcases still with full | off | short
    · omega
    · rw [off] at on; cases on
    · omega
  · rw [serve_canListTake awaits, ownCanListTake_of_range out]
  · obtain ⟨later, split, few, settled, within, stop⟩ := collected_collectSummaries n.toNat 117 s.canList.unreadSummaries
    refine ⟨_, later, split, few, settled, by omega, fun fewer m more same => (stop fewer m more same).imp id (by omega), ?_⟩
    rw [serve_canListTake awaits, ownCanListTake_of_count least most]
    rfl
  · rw [serve_listLevelSet awaits, ownListLevelSet_of_range out]
  · rw [serve_listLevelSet awaits, ownListLevelSet_of_reached least most reached]
  · rw [serve_listLevelSet awaits, ownListLevelSet_of_short least most short]

/-! ## Windows (R88 to R90) -/

theorem qualifyDue_of_since {s : State} {since : Moment} (active : s.pins.confirm = true) (start : s.gate.qualify = some since)
    (passed : since + 20000 ≤ s.now) : qualifyDue s = true := by
  rw [qualifyDue, active, start]
  exact decide_eq_true passed

/-- A window whose can has a pending summary closes it as satisfied (R89). -/
theorem satisfied_summary (windows : List Window) (m : CanSummary) :
    (if windows.any (fun w => w.serial == m.serial) then closeSummary m.serial false m else m) =
      if m.awaiting = true ∧ (∃ w ∈ windows, w.serial = m.serial) then { m with awaiting := false, unconfirmed := false } else m := by
  by_cases open_ : ∃ w ∈ windows, w.serial = m.serial
  · rw [if_pos (by simpa using open_), closeSummary]
    simp only [true_and, open_, and_true]
  · rw [if_neg (by simpa using open_), if_neg (mt And.right open_)]

theorem satisfyWindows_ring (s : State) : (satisfyWindows s).canList.ring = s.canList.ring.map (fun m =>
    if m.awaiting = true ∧ (∃ w ∈ s.gate.windows, w.serial = m.serial) then { m with awaiting := false, unconfirmed := false }
    else m) :=
  congrArg (s.canList.ring.map ·) (funext (satisfied_summary s.gate.windows))

/-- The state in which a window of the can has closed as unconfirmed, before a cause is raised (R89, R90). -/
def State.windowClosed (s : State) (n : Serial) : State :=
  { s with
    gate := { s.gate with unconfirmed := min 255 (s.gate.unconfirmed + 1) }
    canList := { s.canList with ring := s.canList.ring.map (fun m =>
      if m.serial = n ∧ m.awaiting = true then { m with awaiting := false, unconfirmed := true } else m) } }

theorem unconfirmedClose_eq (n : Serial) (s : State) : unconfirmedClose n s =
    if s.gate.unconfirmed = 2 then haltReason .rejectFault n.toNat (s.windowClosed n) else s.windowClosed n := by
  rw [unconfirmedClose, satInc_eq_min]
  rfl

/-- What the close of a window as unconfirmed does (R89, R90). -/
theorem unconfirmedClose_effects (n : Serial) (s : State) : let t := unconfirmedClose n s
    t.gate = (s.windowClosed n).gate ∧ t.canList = (s.windowClosed n).canList ∧
      (s.gate.unconfirmed = 2 → t.pendingOnAll .rejectFault n.toNat ∧ t.haltedBy s .rejectFault) ∧
      (s.gate.unconfirmed ≠ 2 → t.control = s.control ∧ t.attention = s.attention) ∧
      t.tracking = s.tracking ∧ t.dose = s.dose ∧ t.weigh = s.weigh := by
  rw [unconfirmedClose_eq]
  by_cases alarm : s.gate.unconfirmed = 2
  · obtain ⟨pending, halted⟩ := haltReason_effects (c := .rejectFault) nofun n.toNat (s.windowClosed n)
    obtain ⟨a, k, frame⟩ := haltReason_frame .rejectFault n.toNat (s.windowClosed n)
    rw [if_pos alarm]
    refine ⟨?_, ?_, fun _ => ⟨pending, halted⟩, fun other => absurd alarm other, ?_, ?_, ?_⟩ <;> rw [frame] <;> rfl
  · rw [if_neg alarm]
    exact ⟨rfl, rfl, fun two => absurd two alarm, fun _ => ⟨rfl, rfl⟩, rfl, rfl, rfl⟩

/-- The oldest window that is due closes as unconfirmed (R89). -/
theorem expireWindow_of_due {s : State} {ahead rest : List Window} {w : Window} (windows : s.gate.windows = ahead ++ w :: rest)
    (later : ∀ a ∈ ahead, s.now < a.expiry) (due : w.expiry ≤ s.now) :
    expireWindow s = unconfirmedClose w.serial { s with gate := { s.gate with windows := ahead ++ rest } } := by
  have absent : w ∉ ahead := fun mem => absurd due (not_le.mpr (later w mem))
  have found : s.gate.windows.find? (Window.due s.now) = some w := by
    rw [windows]
    exact find_of_ahead (fun a mem => decide_eq_false (not_le.mpr (later a mem))) (decide_eq_true due)
  rw [expireWindow, found]
  dsimp only
  rw [windows, List.erase_append_right _ absent, List.erase_cons_head]

/-- Settles O44: each command of the input and of the windows by its own branch, the close of a window by the run. -/
theorem confirmInputAndWindows : Obligations.ConfirmInputAndWindows := by
  refine ⟨fun s released => ⟨fun inactive => ?_, fun since active start passed => ?_, rfl⟩,
    fun s released => ⟨fun ahead w rest windows later due => ?_, fun e drive due => ?_⟩⟩
  · refine congrArg Host.Outcome.next ((if_neg (by simp [inactive])).trans ?_)
    rw [released]
    rfl
  · refine ⟨_, (next_unlessReset released confirmQualified).trans
      (congrArg Host.Outcome.next (if_pos (qualifyDue_of_since active start passed))), rfl, rfl, rfl, rfl,
      fun some => if_neg (by simpa using some), fun empty => ⟨if_pos ?_, ?_⟩, satisfyWindows_ring _⟩
    · rw [empty]; rfl
    · simp [satisfyWindows, empty]
  · exact ⟨_, (next_unlessReset released expireWindow).trans (congrArg Host.Outcome.next (expireWindow_of_due windows later due)),
      unconfirmedClose_effects w.serial { s with gate := { s.gate with windows := ahead ++ rest } }⟩
  · exact (next_unlessReset released rejectPulseEnd).trans
      (congrArg Host.Outcome.next (if_pos (by simp [pulseEndDue, drive, due])))

end Sys2Proof.Machine

/-! The hand-over at the gate (O43): the drive and its window, the summary, the valve's counts and the departure, one after the
other. -/

namespace Sys2Proof.Machine

theorem att_of_attention {s t : State} (same : s.attention = t.attention) (l : Link) : s.att l = t.att l := by
  rw [State.att, State.att, same]

theorem pendingOnAll_of_attention {s t : State} {x : Cause} {d : Int} (same : t.attention = s.attention)
    (pending : s.pendingOnAll x d) : t.pendingOnAll x d := fun l => att_of_attention same l ▸ pending l

theorem pendingOnAll_raiseOn_of_ne {s : State} {l : Link} {x c : Cause} {d y : Int} (other : x ≠ c)
    (pending : s.pendingOnAll x d) : (raiseOn l c y s).pendingOnAll x d := fun k => by
  by_cases here : k = l
  · subst here
    rw [raiseOn_att_same]
    exact mem_putCause_of_ne (pending k) other
  · rw [raiseOn_att_other c y s here]
    exact pending k

/-! ## Room for a window (R89) -/

section
variable {s : State}

theorem makeWindowRoom_of_room (room : s.gate.windows.length < 32) : makeWindowRoom s = s := by
  unfold makeWindowRoom
  split
  · rfl
  · exact if_neg (not_le.mpr room)

theorem makeWindowRoom_of_full {w : Window} {rest : List Window} (windows : s.gate.windows = w :: rest)
    (full : 32 ≤ s.gate.windows.length) :
    makeWindowRoom s = unconfirmedClose w.serial { s with gate := { s.gate with windows := rest } } := by
  rw [makeWindowRoom, windows]
  exact if_pos (windows ▸ full)

end

/-- What room for a window leaves of the gate and of the can list. -/
theorem makeWindowRoom_keeps (s : State) : let t := makeWindowRoom s
    t.gate.confirmLevel = s.gate.confirmLevel ∧ t.canList = { s.canList with ring := t.canList.ring } ∧
      t.canList.ring.length = s.canList.ring.length := by
  intro t
  rcases lt_or_ge s.gate.windows.length 32 with room | full
  · have same : t = s := makeWindowRoom_of_room room
    rw [same]
    exact ⟨rfl, rfl, rfl⟩
  · obtain ⟨w, rest, windows⟩ := List.exists_cons_of_length_pos (show 0 < s.gate.windows.length by omega)
    obtain ⟨gate, canList, -⟩ := unconfirmedClose_effects w.serial { s with gate := { s.gate with windows := rest } }
    have same : t = unconfirmedClose w.serial { s with gate := { s.gate with windows := rest } } :=
      makeWindowRoom_of_full windows full
    rw [same, gate, canList]
    exact ⟨rfl, rfl, List.length_map _⟩

/-- The state whose attention the drive leaves: where a full window list makes the run go from 2 to 3, REJECT_FAULT is raised (R89,
R90, R172). -/
def State.roomAlarm (s : State) (drives : Bool) : State :=
  match s.gate.windows with
  | w :: _ => if (drives = true ∧ 32 ≤ s.gate.windows.length) ∧ s.gate.unconfirmed = 2 then
      let u := raiseAll .rejectFault w.serial.toNat s
      if s.control.state = .run then raiseAll .haltEntered Cause.rejectFault.code u else u
    else s
  | [] => s

/-- The attention states after a window has closed as unconfirmed, seen from a state with the same attention states (R90, R172). -/
theorem unconfirmedClose_attention (n : Serial) {s u : State} (attention : s.attention = u.attention) (now : s.now = u.now)
    (control : s.control = u.control) : (unconfirmedClose n s).attention =
    if s.gate.unconfirmed = 2 then
      (if u.control.state = .run then raiseAll .haltEntered Cause.rejectFault.code (raiseAll .rejectFault n.toNat u)
        else raiseAll .rejectFault n.toNat u).attention
    else u.attention := by
  rw [unconfirmedClose_eq]
  by_cases two : s.gate.unconfirmed = 2
  · rw [if_pos two, if_pos two]
    rcases haltReason_cases .rejectFault n.toNat (s.windowClosed n) with ⟨other, e⟩ | ⟨run, e⟩
    · rw [e, if_neg (control ▸ other), raiseAll, raiseAll, ← attention, ← now]; rfl
    · rw [e, if_pos (control ▸ run), raiseAll, raiseAll, raiseAll, raiseAll, ← attention, ← now]; rfl
  · rw [if_neg two, if_neg two, ← attention]; rfl

/-! ## The drive (R87, R89) -/

theorem openWindow_eq (L : Layout) (n : Serial) (s : State) : openWindow L n s = { makeWindowRoom s with
    gate := if s.gate.confirmLevel = true then { (makeWindowRoom s).gate with unconfirmed := 0 }
      else { (makeWindowRoom s).gate with
        windows := (makeWindowRoom s).gate.windows ++ [{ serial := n, expiry := s.now + ms L.confirmTime }] } } := by
  have now : (makeWindowRoom s).now = s.now := by
    obtain ⟨_, _, _, _, frame⟩ := makeWindowRoom_frame s
    rw [frame]
  rw [openWindow, ← (makeWindowRoom_keeps s).1, ← now]
  dsimp only
  split <;> rfl

theorem driveFor_of_drive (L : Layout) (n : Serial) (s : State) : driveFor L n true s =
    { makeWindowRoom (startDrive L s) with
      gate := if s.gate.confirmLevel = true then { (makeWindowRoom (startDrive L s)).gate with unconfirmed := 0 }
        else { (makeWindowRoom (startDrive L s)).gate with
          windows := (makeWindowRoom (startDrive L s)).gate.windows ++ [{ serial := n, expiry := s.now + ms L.confirmTime }] } } :=
  openWindow_eq L n (startDrive L s)

section
variable {L : Layout} {n : Serial} {s : State}

theorem driveFor_active (active : s.gate.confirmLevel = true) : (driveFor L n true s).gate.unconfirmed = 0 := by
  rw [driveFor_of_drive, if_pos active]

variable (inactive : s.gate.confirmLevel = false)
include inactive

theorem driveFor_gate_of_inactive : (driveFor L n true s).gate = { (makeWindowRoom (startDrive L s)).gate with
    windows := (makeWindowRoom (startDrive L s)).gate.windows ++ [{ serial := n, expiry := s.now + ms L.confirmTime }] } := by
  rw [driveFor_of_drive, if_neg (Bool.eq_false_iff.mp inactive)]

theorem driveFor_gate_of_room (room : s.gate.windows.length < 32) : (driveFor L n true s).gate = { s.gate with
    drive := some (s.now + ms L.gatePulse)
    windows := s.gate.windows ++ [{ serial := n, expiry := s.now + ms L.confirmTime }] } := by
  rw [driveFor_gate_of_inactive inactive, makeWindowRoom_of_room (s := startDrive L s) room]
  rfl

end

section
variable {L : Layout} {n : Serial} {s : State} {w : Window} {rest : List Window} (windows : s.gate.windows = w :: rest)
  (full : 32 ≤ s.gate.windows.length)
include windows full

theorem driveFor_gate_of_full (inactive : s.gate.confirmLevel = false) : (driveFor L n true s).gate = { s.gate with
    drive := some (s.now + ms L.gatePulse)
    windows := rest ++ [{ serial := n, expiry := s.now + ms L.confirmTime }]
    unconfirmed := min 255 (s.gate.unconfirmed + 1) } := by
  rw [driveFor_gate_of_inactive inactive, makeWindowRoom_of_full (s := startDrive L s) windows full,
    (unconfirmedClose_effects ..).1]
  rfl

/-- The oldest of 32 windows closes as unconfirmed when a can is driven (R89, R90). -/
theorem driveFor_of_full : let t := driveFor L n true s
    t.canList.ring = s.canList.ring.map (fun x =>
      if x.serial = w.serial ∧ x.awaiting = true then { x with awaiting := false, unconfirmed := true } else x) ∧
    (s.gate.unconfirmed = 2 → t.pendingOnAll .rejectFault w.serial.toNat ∧ t.haltedBy s .rejectFault) ∧
    (s.gate.unconfirmed ≠ 2 → t.control = s.control) := by
  intro t
  obtain ⟨-, canList, alarm, quiet, -⟩ := unconfirmedClose_effects w.serial
    { startDrive L s with gate := { (startDrive L s).gate with windows := rest } }
  obtain ⟨g, same⟩ : ∃ g, t = { makeWindowRoom (startDrive L s) with gate := g } := ⟨_, driveFor_of_drive L n s⟩
  rw [makeWindowRoom_of_full (s := startDrive L s) windows full] at same
  rw [same]
  exact ⟨congrArg CanList.ring canList, alarm, fun other => (quiet other).1⟩

end

/-- What the drive leaves of the gate and of the can list. -/
theorem driveFor_keeps (L : Layout) (n : Serial) (drives : Bool) (s : State) : let t := driveFor L n drives s
    t.gate.confirmLevel = s.gate.confirmLevel ∧ t.canList = { s.canList with ring := t.canList.ring } ∧
      t.canList.ring.length = s.canList.ring.length := by
  cases drives with
  | false => exact ⟨rfl, rfl, rfl⟩
  | true =>
    obtain ⟨level, canList, length⟩ := makeWindowRoom_keeps (startDrive L s)
    rw [driveFor_of_drive]
    refine ⟨?_, canList, length⟩
    dsimp only
    split <;> exact level

/-- The drive closes no window where it needs no room (R89). -/
theorem driveFor_of_room {L : Layout} {n : Serial} {drives : Bool} {s : State}
    (room : ¬(drives = true ∧ 32 ≤ s.gate.windows.length)) :
    (driveFor L n drives s).canList = s.canList ∧ (driveFor L n drives s).control = s.control := by
  cases drives with
  | false => exact ⟨rfl, rfl⟩
  | true =>
    rw [driveFor_of_drive,
      makeWindowRoom_of_room (s := startDrive L s) (lt_of_not_ge fun full => room ⟨rfl, full⟩)]
    exact ⟨rfl, rfl⟩

theorem driveFor_attention (L : Layout) (n : Serial) (drives : Bool) (s : State) :
    (driveFor L n drives s).attention = (s.roomAlarm drives).attention := by
  cases drives with
  | false =>
    unfold State.roomAlarm
    split
    · exact congrArg State.attention (if_neg fun full => Bool.false_ne_true full.1.1).symm
    · rfl
  | true =>
    refine (congrArg State.attention (driveFor_of_drive L n s)).trans ?_
    unfold State.roomAlarm
    dsimp only
    split
    · next w rest windows =>
      by_cases full : 32 ≤ s.gate.windows.length
      · rw [makeWindowRoom_of_full (s := startDrive L s) windows full]
        refine (unconfirmedClose_attention w.serial (u := s)
          (s := { startDrive L s with gate := { (startDrive L s).gate with windows := rest } }) rfl rfl rfl).trans ?_
        by_cases two : s.gate.unconfirmed = 2
        · rw [if_pos (⟨⟨rfl, full⟩, two⟩ : (true = true ∧ 32 ≤ s.gate.windows.length) ∧ s.gate.unconfirmed = 2)]
          exact if_pos two
        · rw [if_neg (mt And.right two : ¬((true = true ∧ 32 ≤ s.gate.windows.length) ∧ s.gate.unconfirmed = 2))]
          exact if_neg two
      · rw [makeWindowRoom_of_room (s := startDrive L s) (lt_of_not_ge full), if_neg fun both => full both.1.2]
        rfl
    · next windows =>
      rw [makeWindowRoom_of_room (s := startDrive L s) (show s.gate.windows.length < 32 by rw [windows]; decide)]
      rfl

/-! ## The valve's counts (R92) -/

section
variable {c : CanRecord} {drove : Bool} {s : State}

theorem countHandOver_dose {t : State} (same : t.dose = s.dose) :
    (countHandOver c drove t).dose = (countHandOver c drove s).dose := by
  have valve : ∀ v, t.valve v = s.valve v := fun v => by rw [State.valve, State.valve, same]
  unfold countHandOver
  split
  · exact same
  · rw [valve]
    split
    · exact same
    · rw [State.setValve, State.setValve, same]

theorem countHandOver_of_orphan (orphan : c.valve = none) : countHandOver c drove s = s := by
  rw [countHandOver, orphan]

section
variable {v : Nat} (valve : c.valve = some v)
include valve

theorem countHandOver_of_unused (unused : (s.valve v).state = .unused) : countHandOver c drove s = s := by
  rw [countHandOver, valve]
  exact if_pos unused

theorem countHandOver_of_used (used : (s.valve v).state ≠ .unused) : countHandOver c drove s = s.setValve v { s.valve v with
    weighed := match c.reading with
      | some (.valid _ _) => min 4294967295 ((s.valve v).weighed + 1)
      | _ => (s.valve v).weighed
    rejected := if drove = true then min 4294967295 ((s.valve v).rejected + 1) else (s.valve v).rejected } := by
  rw [countHandOver, valve]
  refine (if_neg used).trans ?_
  simp only [satInc_eq_min] <;> rfl

end

end

/-! ## The departure (R158, R162) -/

section
variable {g : Generation} {s : State} {h : HeldRecipe}

theorem departed_of_last (previous : s.store.previous = some h) (here : h.generation = g) (last : h.count ≤ 1) :
    departed g s = raiseOn .supervisor .recipeRetired h.generation.toNat { s with store := { s.store with previous := none } } := by
  subst here
  rw [departed, previous]
  exact (if_pos rfl).trans (if_pos last)

theorem departed_of_more (previous : s.store.previous = some h) (here : h.generation = g) (more : 1 < h.count) :
    departed g s = { s with store := { s.store with previous := some { h with count := h.count - 1 } } } := by
  rw [departed, previous]
  exact (if_pos here).trans (if_neg (not_le.mpr more))

theorem departed_of_current (other : ∀ h, s.store.previous = some h → h.generation ≠ g) :
    departed g s = departCurrent g s := by
  unfold departed
  split
  · next h previous => exact if_neg (other h previous)
  · rfl

end

/-! ## The hand-over (R86) -/

/-- The summary that the hand-over of a record appends (R91, R94). -/
def handedSummary (c : CanRecord) (s : State) : CanSummary :=
  let d := recordAtGate c s
  let v := verdictOf d.reasons
  summaryOf d v (v.drives && !s.gate.confirmLevel)

/-- The hand-over of a record, before the store hears of its departure. -/
theorem gateDone_parts (L : Layout) (c : CanRecord) (s : State) :
    let drives := (verdictOf (recordAtGate c s).reasons).drives
    let driven := driveFor L c.serial drives s
    let appended := appendSummary (handedSummary c s) driven
    let t := gateDone L c s
    t.gate = driven.gate ∧ t.canList = appended.canList ∧ t.control = driven.control ∧ t.attention = appended.attention ∧
      t.dose = (countHandOver c drives s).dose ∧ t.store = s.store ∧ t.now = s.now := by
  intro drives driven appended t
  obtain ⟨g, l, a, k, driving⟩ : ∃ g l a k, driven = _ := driveFor_frame L c.serial drives s
  obtain ⟨a', l', appends⟩ : ∃ a l, appended = _ := appendSummary_frame (handedSummary c s) driven
  obtain ⟨d, counts⟩ := countHandOver_frame (recordAtGate c s) drives appended
  have result : t = countHandOver (recordAtGate c s) drives appended := by
    have level : driven.gate.confirmLevel = s.gate.confirmLevel := (driveFor_keeps L c.serial drives s).1
    have summary : handedSummary c s = summaryOf (recordAtGate c s) (verdictOf (recordAtGate c s).reasons)
      (drives && !driven.gate.confirmLevel) := by rw [level]; rfl
    rw [show appended = appendSummary _ driven from congrArg (appendSummary · driven) summary]
    rfl
  have dose : appended.dose = s.dose := by rw [appends, driving]
  have counted : t.dose = (countHandOver c drives s).dose := by
    rw [result]
    exact countHandOver_dose (c := recordAtGate c s) dose
  rw [result] at counted ⊢
  refine ⟨?_, ?_, ?_, ?_, counted, ?_, ?_⟩ <;> rw [counts]
  · rw [appends]
  · rw [appends]
  · rw [appends, driving]
  · rw [appends, driving]

theorem appendSummary_ring (m : CanSummary) (s : State) : (appendSummary m s).canList.ring = (s.canList.append m).ring := by
  unfold appendSummary
  dsimp only
  split <;> rfl

/-- The can list and the quality link's attention state after an append (R94, R96). -/
theorem appendSummary_list (m : CanSummary) (s : State) (whole : s.canList.ring.length ≤ 256)
    (held : s.canList.unread ≤ s.canList.ring.length) :
    let n := s.canList.unread + 1
    let reached := s.canList.armed = true ∧ s.canList.unread < 256 ∧ s.canList.level ≤ n
    let t := appendSummary m s
    t.canList.unread = min 256 n ∧ t.canList.level = s.canList.level ∧
      (reached → t.canList.armed = false ∧ t.att .quality = (s.att .quality).raised s.now .canListLevel n) ∧
      (¬reached → t.canList.armed = s.canList.armed ∧ t.att .quality = s.att .quality) := by
  intro n reached t
  obtain ⟨-, -, unread, level, reaches, stays⟩ := appendSummary_effect m s whole held
  have reached_iff : reached ↔ s.canList.armed = true ∧ s.canList.unread < min 256 n ∧ s.canList.level ≤ min 256 n :=
    and_congr_right fun _ => by omega
  refine ⟨unread, level, fun now => ?_, fun other => ?_⟩
  · obtain ⟨off, raised⟩ := reaches (reached_iff.mp now)
    refine ⟨off, ?_⟩
    rw [att_of_attention raised, raiseOn_att_same, min_eq_right (show n ≤ 256 from now.2.1)]
  · obtain ⟨same, still⟩ := stays (mt reached_iff.mpr other)
    exact ⟨same, att_of_attention still _⟩

section
variable (L : Layout) (c : CanRecord) (s : State)

/-- What the departure leaves of the hand-over. -/
theorem handOver_parts :
    let drives := (verdictOf (recordAtGate c s).reasons).drives
    let driven := driveFor L c.serial drives s
    let t := handOver L c s
    t.gate = driven.gate ∧ t.canList = (appendSummary (handedSummary c s) driven).canList ∧ t.control = driven.control ∧
      t.dose = (countHandOver c drives s).dose ∧ t.tracking = s.tracking ∧ t.weigh = s.weigh ∧ t.code = s.code ∧
      t.links = s.links := by
  obtain ⟨gate, canList, control, -, dose, -, -⟩ := gateDone_parts L c s
  obtain ⟨_, _, depart⟩ := departed_frame c.generation (gateDone L c s)
  obtain ⟨_, _, _, _, _, _, frame⟩ := handOver_frame L c s
  intro drives driven t
  refine ⟨?_, ?_, ?_, ?_, (congrArg State.tracking frame :), (congrArg State.weigh frame :),
    (congrArg State.code frame :), (congrArg State.links frame :)⟩ <;> rw [show t = _ from (handOver_eq L c s).trans depart]
  · exact gate
  · exact canList
  · exact control
  · exact dose

/-- The summary joins the ring that the drive has left (R94). -/
theorem handOver_ring (whole : s.canList.ring.length ≤ 256) :
    let ring := (driveFor L c.serial (verdictOf (recordAtGate c s).reasons).drives s).canList.ring
    (handOver L c s).canList.ring = (ring ++ [handedSummary c s]).drop (ring.length + 1 - 256) := by
  intro ring
  obtain ⟨-, -, length⟩ := driveFor_keeps L c.serial (verdictOf (recordAtGate c s).reasons).drives s
  rw [(handOver_parts L c s).2.1, appendSummary_ring]
  exact append_ring _ _ (length ▸ whole)

theorem gateDone_attention : (gateDone L c s).attention =
    (appendSummary (handedSummary c s) (driveFor L c.serial (verdictOf (recordAtGate c s).reasons).drives s)).attention :=
  (gateDone_parts L c s).2.2.2.1

/-- The can list and the attention states of the filler and the quality link after a hand-over (R94, R96). -/
theorem handOver_list (whole : s.canList.ring.length ≤ 256) (held : s.canList.unread ≤ s.canList.ring.length) :
    let closed := s.roomAlarm (verdictOf (recordAtGate c s).reasons).drives
    let t := handOver L c s
    let n := s.canList.unread + 1
    let reached := s.canList.armed = true ∧ s.canList.unread < 256 ∧ s.canList.level ≤ n
    t.canList.unread = min 256 n ∧ t.canList.level = s.canList.level ∧ t.att .filler = closed.att .filler ∧
      (gateDone L c s).att .supervisor = closed.att .supervisor ∧
      (reached → t.canList.armed = false ∧ t.att .quality = (closed.att .quality).raised s.now .canListLevel n) ∧
      (¬reached → t.canList.armed = s.canList.armed ∧ t.att .quality = closed.att .quality) := by
  obtain ⟨-, list, length⟩ := driveFor_keeps L c.serial (verdictOf (recordAtGate c s).reasons).drives s
  obtain ⟨_, _, _, _, frame⟩ := driveFor_frame L c.serial (verdictOf (recordAtGate c s).reasons).drives s
  have closing := att_of_attention (driveFor_attention L c.serial (verdictOf (recordAtGate c s).reasons).drives s)
  have att := att_of_attention (gateDone_attention L c s)
  have list' := (handOver_parts L c s).2.1
  have now := congrArg State.now frame
  have unread := congrArg CanList.unread list
  have level := congrArg CanList.level list
  have armed := congrArg CanList.armed list
  dsimp only at closing list' now unread level armed
  have effects := appendSummary_list (handedSummary c s)
    (driveFor L c.serial (verdictOf (recordAtGate c s).reasons).drives s) (length ▸ whole) (by rw [unread, length]; exact held)
  rw [now, unread, level, armed, closing] at effects
  obtain ⟨unread', level', reaches, stays⟩ := effects
  intro closed t n reached
  have quality := (departed_att (k := .quality) c.generation (gateDone L c s) nofun).trans (att _)
  have filler := (departed_att (k := .filler) c.generation (gateDone L c s) nofun).trans (att _)
  rw [list']
  exact ⟨unread', level', filler.trans ((appendSummary_att (k := .filler) _ _ nofun).1.trans (closing _)),
    (att _).trans ((appendSummary_att (k := .supervisor) _ _ nofun).1.trans (closing _)),
    fun raises => ⟨(reaches raises).1, quality.trans (reaches raises).2⟩,
    fun quiet => ⟨(stays quiet).1, quality.trans (stays quiet).2⟩⟩

/-- A cause pending after the drive is pending after the hand-over, which raises CAN_LIST_LEVEL and RECIPE_RETIRED alone. -/
theorem handOver_pendingOnAll {x : Cause} {d : Int} (other : x ≠ .canListLevel) (other' : x ≠ .recipeRetired)
    (pending : (driveFor L c.serial (verdictOf (recordAtGate c s).reasons).drives s).pendingOnAll x d) :
    (handOver L c s).pendingOnAll x d := by
  have appended : (gateDone L c s).pendingOnAll x d := by
    refine pendingOnAll_of_attention (gateDone_attention L c s) ?_
    unfold appendSummary
    dsimp only
    split
    · exact pendingOnAll_raiseOn_of_ne other pending
    · exact pending
  rw [handOver_eq]
  rcases departed_cases c.generation (gateDone L c s) with ⟨_, _, _, _, e⟩ | ⟨_, _, _, _, e⟩ | ⟨_, e⟩ <;> rw [e]
  · exact pendingOnAll_raiseOn_of_ne other' appended
  · exact appended
  · exact appended

/-- The hand-over of a driven can at 32 windows (R89, R90, R172). -/
theorem handOver_of_full {w : Window} {rest : List Window} (drives : (verdictOf (recordAtGate c s).reasons).drives = true)
    (windows : s.gate.windows = w :: rest) (full : 32 ≤ s.gate.windows.length) : let t := handOver L c s
    let ring := s.canList.ring.map (fun x =>
      if x.serial = w.serial ∧ x.awaiting = true then { x with awaiting := false, unconfirmed := true } else x)
    (s.canList.ring.length ≤ 256 → t.canList.ring = (ring ++ [handedSummary c s]).drop (ring.length + 1 - 256)) ∧
      (s.gate.unconfirmed = 2 → t.pendingOnAll .rejectFault w.serial.toNat ∧ t.haltedBy s .rejectFault) ∧
      (s.gate.unconfirmed ≠ 2 → t.control = s.control) := by
  intro t ring
  obtain ⟨ring', alarm, quiet⟩ := driveFor_of_full (L := L) (n := c.serial) windows full
  obtain ⟨-, -, control, -⟩ := handOver_parts L c s
  have joins := handOver_ring L c s
  have pending := @handOver_pendingOnAll L c s
  dsimp only at control joins
  rw [drives] at control joins pending
  rw [ring'] at joins
  refine ⟨joins, fun two => ?_, fun other => control.trans (quiet other)⟩
  obtain ⟨raised, run, elsewhere⟩ := alarm two
  refine ⟨pending nofun nofun raised, fun running => ?_, fun idle => control.trans (elsewhere idle)⟩
  obtain ⟨halted, entered⟩ := run running
  exact ⟨control.trans halted, pending nofun nofun entered⟩

/-- What the store and the supervisor link hear of a hand-over (R158, R162). -/
theorem handOver_departure : let t := handOver L c s
    (∀ h, s.store.previous = some h → h.generation = c.generation → h.count ≤ 1 →
      t.store = { s.store with previous := none } ∧
      t.att .supervisor = ((gateDone L c s).att .supervisor).raised s.now .recipeRetired h.generation.toNat) ∧
    (∀ h, s.store.previous = some h → h.generation = c.generation → 1 < h.count →
      t.store = { s.store with previous := some { h with count := h.count - 1 } } ∧
      t.att .supervisor = (gateDone L c s).att .supervisor) ∧
    ((∀ h, s.store.previous = some h → h.generation ≠ c.generation) →
      t.store = { s.store with current := s.store.current.map (fun h =>
        if h.generation = c.generation then { h with count := h.count - 1 } else h) } ∧
      t.att .supervisor = (gateDone L c s).att .supervisor) := by
  obtain ⟨-, -, -, -, -, store, now⟩ := gateDone_parts L c s
  rw [← store, ← now, handOver_eq]
  refine ⟨fun h previous here last => ?_, fun h previous here more => ?_, fun other => ?_⟩
  · rw [departed_of_last previous here last]
    exact ⟨rfl, raiseOn_att_same ..⟩
  · rw [departed_of_more previous here more]
    exact ⟨rfl, rfl⟩
  · rw [departed_of_current other]
    exact ⟨rfl, rfl⟩

end

/-- Settles O43: the drive, the append, the counts and the departure leave each other's fields. -/
theorem handOverAtTheGate : Obligations.HandOverAtTheGate := by
  intro L c s gates d v t opened m joins full
  obtain ⟨gate, canList, control, dose, tracking, weigh, code, links⟩ := handOver_parts L c s
  obtain ⟨level, -⟩ := driveFor_keeps L c.serial v.drives s
  have newest : t.canList.ring.getLast? = some m := canList ▸ appendSummary_newest (handedSummary c s) _
  refine ⟨fun drives => ?_, fun still => ?_, (congrArg GateUnit.confirmLevel gate).trans level, newest, fun room => ?_,
    fun orphan => dose.trans (congrArg State.dose (countHandOver_of_orphan orphan)),
    fun u valve unused => dose.trans (congrArg State.dose (countHandOver_of_unused valve unused)),
    fun u valve used => dose.trans (congrArg State.dose (countHandOver_of_used valve used)), tracking, weigh, code, links,
    fun whole held => ?_⟩
  · have driven : driveFor L c.serial v.drives s = driveFor L c.serial true s := by rw [drives]
    have gate' : t.gate = (driveFor L c.serial true s).gate := gate.trans (congrArg State.gate driven)
    refine ⟨(handOver_drive L c s).trans (if_pos drives), fun active => gate' ▸ driveFor_active active, fun inactive => ?_,
      fun inactive room => gate'.trans (driveFor_gate_of_room inactive room),
      fun w rest inactive windows large =>
        ⟨gate'.trans (driveFor_gate_of_full windows large inactive), handOver_of_full L c s drives windows large⟩⟩
    rw [gate', driveFor_gate_of_inactive inactive]
    exact List.getLast?_concat
  · have driven : driveFor L c.serial v.drives s = s := by rw [still]; rfl
    exact gate.trans (congrArg State.gate driven)
  · obtain ⟨list, still⟩ := driveFor_of_room (L := L) (n := c.serial) room
    exact ⟨fun whole => list ▸ handOver_ring L c s whole, control.trans still⟩
  · intro n reached closed
    obtain ⟨unread, level, filler, supervisor, reaches, stays⟩ := handOver_list L c s whole held
    obtain ⟨last, more, current⟩ := handOver_departure L c s
    rw [supervisor] at last more current
    exact ⟨unread, level, filler, reaches, stays, last, more, current⟩

end Sys2Proof.Machine

/-! The position and the can serial counter over all commands (O25). -/

namespace Sys2Proof.Machine

/-- The position counter and the can serial counter (R4, R9). -/
def State.place (s : State) : Position × Serial := (s.tracking.position, s.tracking.serial)

section
variable {s t : State}

theorem place_of_tracking (same : t.tracking = s.tracking) : t.place = s.place := by rw [State.place, State.place, same]

theorem SameCounters.place (same : SameCounters s t) : t.place = s.place := by
  rw [State.place, State.place, same.position, same.serial]

end

/-! ## What leaves both: the blocks (chapters 1, 2 and 4 to 8) -/

section
variable (s : State)

theorem haltReason_place (c : Cause) (d : Int) : (haltReason c d s).place = s.place := place_of_tracking (haltReason_tracking c d s)

theorem flushQueue_place : (flushQueue s).place = s.place := by
  obtain ⟨_, _, _, _, frame⟩ := flushQueue_frame s
  rw [frame]
  rfl

theorem abortCapture_place (c : AbortCause) : (abortCapture c s).place = s.place := by
  obtain ⟨_, _, frame⟩ := abortCapture_frame c s
  rw [frame]
  rfl

theorem beginZeroCapture_place : (beginZeroCapture s).place = s.place := by
  obtain ⟨_, _, frame⟩ := beginZeroCapture_frame s
  rw [frame]
  rfl

theorem serveDoses_place (l : Link) (v n : Nat) : (serveDoses l v n s).place = s.place := by
  obtain ⟨_, frame⟩ := serveDoses_frame l v n s
  rw [frame]
  rfl

theorem passToReady_place : (passToReady s).place = s.place := by
  unfold passToReady
  split <;> rfl

theorem retireIfEmpty_place : (retireIfEmpty s).place = s.place := by
  obtain ⟨_, frame⟩ := retireIfEmpty_frame s
  rw [frame]
  rfl

theorem installLayout_place (r : Layout) : (installLayout r s).place = s.place := passToReady_place _

theorem installCalibration_place (r : Calibration) : (installCalibration r s).place = s.place :=
  (passToReady_place _).trans (abortCapture_place s .calLoad)

theorem installRecipe_place (r : Recipe) (keep : Bool) : (installRecipe r keep s).place = s.place :=
  (passToReady_place _).trans (retireIfEmpty_place _)

theorem startLine_place : (startLine s).place = s.place := abortCapture_place s .start

theorem stopLine_place : (stopLine s).place = s.place := (endWithCause_counters .flushedDuringDwell s).place

theorem clearLine_place : (clearLine s).place = s.place := rfl

theorem restartLine_place : (restartLine s).place = s.place := (abortCapture_place _ .restart).trans (flushQueue_place s)

theorem invalidConversion_place (m : InvalidMark) : (invalidConversion m s).place = s.place := by
  obtain ⟨_, _, _, frame⟩ := invalidConversion_frame m s
  rw [frame]
  rfl

theorem completeConversion_place : (completeConversion s).place = s.place := by
  unfold completeConversion
  split
  · dsimp only
    split
    · obtain ⟨_, _, _, frame⟩ := validConversion_frame (frequencyOf s.cal.periodSetting s.weigh.period)
        (s.setWeigh { s.weigh with period := 0 })
      rw [frame]
      rfl
    · exact invalidConversion_place _ _
  · rfl

theorem overflowConversion_place : (overflowConversion s).place = s.place := by
  unfold overflowConversion
  split
  · exact invalidConversion_place _ _
  · rfl

theorem startConversion_place : (startConversion s).place = s.place := by
  unfold startConversion
  split <;> rfl

theorem clearEye_place : (clearEye s).place = s.place := by
  unfold clearEye
  split
  · rfl
  · rfl
  · exact (post_counters ..).place
  · rfl

theorem unconfirmedClose_place (n : Serial) : (unconfirmedClose n s).place = s.place :=
  place_of_tracking (unconfirmedClose_effects n s).2.2.2.2.1

theorem expireWindow_place : (expireWindow s).place = s.place := by
  unfold expireWindow
  split
  · rfl
  · exact unconfirmedClose_place _ _

theorem confirmQualified_place : (confirmQualified s).place = s.place := by
  unfold confirmQualified
  split <;> rfl

theorem confirmActive_place : (confirmActive s).place = s.place := by
  unfold confirmActive
  split <;> rfl

theorem rejectPulseEnd_place : (rejectPulseEnd s).place = s.place := by
  unfold rejectPulseEnd
  split <;> rfl

/-! ## What leaves both: the line command input (R178, R179) -/

theorem handLine_place {act : State → State} (same : (act s).place = s.place) (n : Nat) (allowed : State → Bool) :
    (handLine n allowed act s).place = s.place := by
  unfold handLine
  dsimp only
  split
  · exact same
  · rfl

theorem handCommand_place (n : Nat) : (handCommand n s).place = s.place := by
  unfold handCommand
  split
  · exact handLine_place s (clearLine_place s) ..
  · exact handLine_place s rfl ..
  · exact handLine_place s rfl ..
  · exact handLine_place s (flushQueue_place s) ..
  · exact handLine_place s (beginZeroCapture_place s) ..
  · rfl

theorem endCommand_place {n : Nat} {act : State → State} (same : (act (setDecoder .idle s)).place = s.place) :
    (endCommand n act s).place = s.place := by
  unfold endCommand
  split
  · exact same
  · rfl

theorem endBadCount_place : (endBadCount s).place = s.place := by
  unfold endBadCount
  split
  · split <;> rfl
  · rfl

theorem spellTimeout_place : (spellTimeout s).place = s.place := by
  unfold spellTimeout
  split
  · rfl
  · split <;> rfl

theorem settleSpell_place : (settleSpell s).place = s.place := by
  unfold settleSpell
  split
  · exact handCommand_place _ _
  · exact spellTimeout_place s

theorem fallingEffect_place : (fallingEffect s).place = s.place := by
  unfold fallingEffect
  repeat' split
  all_goals rfl

theorem risingEffect_place : (risingEffect s).place = s.place := by
  unfold risingEffect
  repeat' split
  all_goals rfl

theorem lineFalls_place : (lineFalls s).place = s.place := by
  unfold lineFalls
  split
  · rfl
  · split
    · rfl
    · exact (fallingEffect_place _).trans (settleSpell_place s)

theorem lineRises_place : (lineRises s).place = s.place := by
  unfold lineRises
  split
  · rfl
  · split
    · rfl
    · exact (risingEffect_place _).trans (settleSpell_place s)

/-! ## What leaves both: the reader and the links (chapters 3 and 9) -/

theorem storeReader_place (e : Bool → Entry) (watch : Option Moment) : (storeReader e watch s).place = s.place := by
  unfold storeReader
  split
  · rfl
  · unfold afterStore
    split <;> rfl

theorem readerCharacter_place (data : Byte) (parityBit stopBit : Bool) :
    (readerCharacter data parityBit stopBit s).place = s.place := by
  unfold readerCharacter
  split
  · rfl
  · exact storeReader_place ..

theorem readerGap_place : (readerGap s).place = s.place := by
  unfold readerGap
  split
  · exact storeReader_place ..
  · rfl

theorem breakReader_place : (breakReader s).place = s.place := by
  unfold breakReader
  dsimp only
  repeat' split
  all_goals rfl

theorem readerTake_place : (readerTake s).place = s.place := by
  unfold readerTake
  split
  · unfold afterTake
    split <;> rfl
  · rfl

theorem handleMessage_place : (handleMessage s).place = s.place := by
  unfold handleMessage matchMessage
  dsimp only
  repeat' split
  all_goals rfl

theorem countError_place (l : Link) (n : CountName) : (countError l n s).place = s.place := by
  obtain ⟨_, _, frame⟩ := countError_frame l n s
  rw [frame]
  rfl

theorem countEntry_place (l : Link) (e : Entry) : (countEntry l e s).place = s.place := by
  unfold countEntry
  split
  · rfl
  · exact countError_place ..
  · exact countError_place ..
  · split <;> exact (countError_place ..).trans (countError_place s.chosen ..)

theorem storeEntry_place (l : Link) (e : Bool → Entry) (watch : Option Moment) : (storeEntry l e watch s).place = s.place := by
  unfold storeEntry
  dsimp only
  split
  · rfl
  · exact countEntry_place ..

theorem receiveCharacter_place (l : Link) (data : Byte) (parityBit stopBit : Bool) :
    (receiveCharacter l data parityBit stopBit s).place = s.place := by
  unfold receiveCharacter
  dsimp only
  repeat' split
  · rfl
  · rfl
  · rfl
  · exact storeEntry_place ..

theorem receiveGap_place (l : Link) : (receiveGap l s).place = s.place := by
  unfold receiveGap
  split
  · exact storeEntry_place ..
  · rfl

theorem breakLink_place (l : Link) : (breakLink l s).place = s.place := by
  unfold breakLink
  split <;> rfl

theorem setPort_place (ch : Channel) (p : Port) : (s.setPort ch p).place = s.place := by
  cases ch <;> rfl

theorem expirePause_place (l : Link) : (expirePause l s).place = s.place := by
  unfold expirePause
  split <;> rfl

theorem actAssembler_place (l : Link) (act : AssemblerAct) : (actAssembler l act s).place = s.place := by
  cases act with
  | goOn a => rfl
  | drop n => exact countError_place ..
  | complete r => rfl

theorem takeFrameEntry_place (l : Link) : (takeFrameEntry l s).place = s.place := by
  unfold takeFrameEntry
  dsimp only
  split
  · rfl
  · split
    · exact actAssembler_place ..
    · rfl

theorem placeHeld_place (l : Link) : (placeHeld l s).place = s.place := by
  unfold placeHeld
  split <;> rfl

theorem sendCharacter_place (ch : Channel) : (sendCharacter ch s).place = s.place := by
  unfold sendCharacter
  dsimp only
  split
  · rfl
  · split
    · exact setPort_place ..
    · rfl

theorem serveUnknown_place (l : Link) (kind : Byte) (p : List Byte) : (serveUnknown l kind p s).place = s.place := by
  unfold serveUnknown
  split <;> rfl

theorem expireHold_place (l : Link) : (expireHold l s).place = s.place := by
  unfold expireHold
  split <;> rfl

end

/-! ## What leaves both: the requests (chapter 10) -/

section
variable (l : Link) (p : List Byte) (s : State)

theorem ownDoseQuery_place : (ownDoseQuery l p s).2.place = s.place := by
  unfold ownDoseQuery
  dsimp only
  repeat' split
  · rfl
  · rfl
  · exact serveDoses_place ..

theorem withValve_place {act : Nat → State → Served} (same : ∀ v, (act v s).2.place = s.place) :
    (withValve p act s).2.place = s.place := by
  unfold withValve
  repeat' split
  · rfl
  · rfl
  · exact same _

theorem holdValve_place (v : Nat) : (holdValve l v s).2.place = s.place := by
  unfold holdValve
  repeat' split
  all_goals rfl

theorem freeValve_place (v : Nat) : (freeValve l v s).2.place = s.place := by
  unfold freeValve
  repeat' split
  all_goals rfl

theorem acceptValve_place (v : Nat) : (acceptValve v s).2.place = s.place := by
  unfold acceptValve
  split <;> rfl

theorem ownBaseSet_place : (ownBaseSet p s).2.place = s.place := by
  unfold ownBaseSet
  dsimp only
  repeat' split
  all_goals rfl

theorem ownValveView_place : (ownValveView l p s).2.place = s.place := by
  unfold ownValveView
  dsimp only
  repeat' split
  all_goals rfl

theorem ownLayoutLoad_place : (ownLayoutLoad p s).2.place = s.place := by
  unfold ownLayoutLoad
  repeat' split
  · rfl
  · rfl
  · rfl
  · exact installLayout_place ..

theorem ownCalLoad_place : (ownCalLoad p s).2.place = s.place := by
  unfold ownCalLoad
  repeat' split
  · rfl
  · rfl
  · exact installCalibration_place ..

theorem ownRecipeLoad_place : (ownRecipeLoad p s).2.place = s.place := by
  unfold ownRecipeLoad
  dsimp only
  repeat' split
  · rfl
  · rfl
  · exact installRecipe_place ..
  · rfl
  · exact (installRecipe_place ..).trans (flushQueue_place s)

theorem ownRecordRead_place : (ownRecordRead p s).2.place = s.place := by
  unfold ownRecordRead
  repeat' split
  all_goals rfl

theorem ownStart_place : (ownStart s).2.place = s.place := by
  unfold ownStart
  split
  · rfl
  · exact startLine_place s

theorem ownStop_place : (ownStop s).2.place = s.place := by
  unfold ownStop
  split
  · rfl
  · exact stopLine_place s

theorem ownClear_place : (ownClear s).2.place = s.place := by
  unfold ownClear
  split
  · exact clearLine_place s
  · rfl

theorem ownFlush_place : (ownFlush s).2.place = s.place := by
  unfold ownFlush
  split
  · rfl
  · exact flushQueue_place s

theorem ownZeroCapture_place : (ownZeroCapture s).2.place = s.place := by
  unfold ownZeroCapture
  repeat' split
  · rfl
  · rfl
  · exact beginZeroCapture_place s

theorem ownSpanCapture_place : (ownSpanCapture p s).2.place = s.place := by
  unfold ownSpanCapture
  repeat' split
  all_goals rfl

theorem ownCanListTake_place : (ownCanListTake p s).2.place = s.place := by
  unfold ownCanListTake
  split <;> rfl

theorem ownListLevelSet_place : (ownListLevelSet p s).2.place = s.place := by
  unfold ownListLevelSet
  dsimp only
  repeat' split
  all_goals rfl

theorem ownQueueView_place : (ownQueueView p s).2.place = s.place := by
  unfold ownQueueView
  dsimp only
  split <;> rfl

theorem ownCauseTake_place : (ownCauseTake l s).2.place = s.place := by
  unfold ownCauseTake
  split <;> rfl

theorem ownCauseEnable_place : (ownCauseEnable l p s).2.place = s.place := by
  unfold ownCauseEnable
  dsimp only
  split <;> rfl

theorem ownLinkStats_place : (ownLinkStats l p s).2.place = s.place := by
  unfold ownLinkStats
  dsimp only
  split <;> rfl

end

/-! ## Records made (R9) -/

/-- The position stays, and the serial counter moves for one new record alone (R9). -/
def MadeAtMostOne (s t : State) : Prop :=
  t.tracking.position = s.tracking.position ∧ (t.tracking.serial = s.tracking.serial ∨
    (t.tracking.serial = s.tracking.serial + 1 ∧ t.tracking.queue.length = s.tracking.queue.length + 1))

section
variable {s t u : State}

theorem MadeAtMostOne.of_place (same : t.place = s.place) : MadeAtMostOne s t := by
  obtain ⟨position, serial⟩ := Prod.mk.inj same
  exact ⟨position, .inl serial⟩

theorem MadeAtMostOne.of_tracking (made : MadeAtMostOne s t) (same : u.tracking = t.tracking) : MadeAtMostOne s u := by
  rw [MadeAtMostOne, same]
  exact made

theorem joinQueue_made {q : List CanRecord} (one : q.length = s.tracking.queue.length + 1) : MadeAtMostOne s (joinQueue q s) :=
  ⟨rfl, .inr ⟨rfl, one⟩⟩

theorem slipAdd_queue (L : Layout) (s : State) : (slipAdd L s).tracking.queue = s.tracking.queue := by
  unfold slipAdd
  dsimp only
  split
  · rw [haltReason_tracking]
    rfl
  · rfl

theorem makeOrphan_made (L : Layout) (s : State) : MadeAtMostOne s (makeOrphan L s).2 := by
  unfold makeOrphan
  split
  · exact .of_place (haltReason_place ..)
  · dsimp only
    have one : (beforeFilled s.tracking.queue ++ orphanRecord s (heldBack (beforeFilled s.tracking.queue).getLast?
        (orphanEstimate L s.tracking.position)) :: fromFilled s.tracking.queue).length = s.tracking.queue.length + 1 := by
      have whole := congrArg List.length (List.takeWhile_append_dropWhile (p := fun c : CanRecord => c.stage != .filled)
        (l := s.tracking.queue))
      rw [List.length_append] at whole
      rw [List.length_append, List.length_cons, ← whole]
      rfl
    obtain ⟨position, -, serial⟩ := slipAdd_counters L (joinQueue (beforeFilled s.tracking.queue ++ orphanRecord s (heldBack
      (beforeFilled s.tracking.queue).getLast? (orphanEstimate L s.tracking.position)) :: fromFilled s.tracking.queue) s)
    exact ⟨position, .inr ⟨serial, (congrArg List.length (slipAdd_queue ..)).trans one⟩⟩

theorem arrive_made (L : Layout) (s : State) : MadeAtMostOne s (arrive L s).2 := by
  obtain ⟨run, tracking⟩ := platformPass_tracking L s
  have orphan : MadeAtMostOne s (makeOrphan L (platformPass L s)).2 := by
    have made := makeOrphan_made L (platformPass L s)
    rw [MadeAtMostOne, tracking] at made
    rw [length_markMissed] at made
    exact made
  unfold arrive
  dsimp only
  split
  · split
    · exact .of_place (platformPass_counters L s).place
    · exact orphan
  · exact orphan

theorem blockEye_made (s : State) : MadeAtMostOne s (blockEye s) := by
  unfold blockEye
  split
  · split
    · split
      · exact .of_place rfl
      · exact arrive_made _ s
    · refine .of_place ?_
      unfold abortZeroByEye
      split
      · exact abortCapture_place _ _
      · rfl
  · exact .of_place rfl

theorem faultBlock_tracking (v : Nat) (s : State) : (faultBlock v s).tracking = s.tracking := by
  obtain ⟨_, frame⟩ := faultBlock_frame v s
  rw [frame]

theorem fillServed_tracking (st : Status) (n : Option Serial) (v : Nat) (s : State) :
    (fillServed st n v s).2.tracking = s.tracking := by
  obtain ⟨_, frame⟩ := serveDose_frame .filler v s
  exact (congrArg State.tracking frame :)

theorem fillRecord_made (p : List Byte) (x : Position) (s : State) : MadeAtMostOne s (fillRecord p x s).2 := by
  unfold fillRecord
  split
  · exact .of_place ((place_of_tracking (fillServed_tracking ..)).trans (haltReason_place ..))
  · exact (joinQueue_made (List.length_append ..)).of_tracking (fillServed_tracking ..)

theorem ownFillReport_made (p : List Byte) (x : Position) (s : State) : MadeAtMostOne s (ownFillReport p x s).2 := by
  unfold ownFillReport
  repeat' split
  · exact .of_place rfl
  · exact .of_place rfl
  · exact .of_place (place_of_tracking (fillServed_tracking ..))
  · have made := fillRecord_made p x (faultBlock (fillValve p) s)
    rw [MadeAtMostOne, faultBlock_tracking] at made
    exact made
  · exact fillRecord_made p x s

end

/-! ## Over all commands -/

/-- What a command may do to the position and the can serial counter (R4, R9). -/
def PlaceMoves (i : Instr) (s t : State) : Prop :=
  (t.tracking.position = s.tracking.position ∨
    (i = .encoderPulse ∧ t.tracking.position = s.tracking.position + 1)) ∧
  (t.tracking.serial = s.tracking.serial ∨
    ((i = .eyeBlockingEdge ∨ ∃ p st, i = .fillReport .filler p st) ∧ t.tracking.serial = s.tracking.serial + 1 ∧
      t.tracking.queue.length = s.tracking.queue.length + 1))

section
variable {i : Instr} {s t : State}

theorem PlaceMoves.of_place (same : t.place = s.place) : PlaceMoves i s t := by
  obtain ⟨position, serial⟩ := Prod.mk.inj same
  exact ⟨.inl position, .inl serial⟩

theorem PlaceMoves.of_made (maker : i = .eyeBlockingEdge ∨ ∃ p st, i = .fillReport .filler p st) (made : MadeAtMostOne s t) :
    PlaceMoves i s t := ⟨.inl made.1, made.2.imp id fun one => ⟨maker, one⟩⟩

section
variable {k : Kind} {l : Link} {p : List Byte} {st : Option Position} {own : State → Served}

theorem served_place (same : (own s).2.place = s.place) : PlaceMoves i s (serve k l p st own s) := by
  refine .of_place ?_
  rcases serve_cases k l p st own s with ⟨-, e⟩ | ⟨-, -, ⟨-, e⟩ | ⟨-, -, e⟩ | ⟨-, -, e⟩⟩ <;> rw [e]
  · rfl
  · rfl
  · exact same

theorem event_place {f : State → State} (same : (f s).place = s.place) : PlaceMoves i s (unlessReset f s) := by
  refine .of_place ?_
  unfold unlessReset
  split
  · rfl
  · exact same

end

/-- A FILL REPORT is served on the filler link alone (R8). -/
theorem fillReport_moves (l : Link) (p : List Byte) (x : Position) (st : Option Position) (s : State) :
    PlaceMoves (.fillReport l p x) s (serve .fillReport l p st (ownFillReport p x) s) := by
  rcases serve_cases .fillReport l p st (ownFillReport p x) s with
    ⟨-, e⟩ | ⟨-, -, ⟨-, e⟩ | ⟨-, -, e⟩ | ⟨may, -, e⟩⟩ <;> rw [e]
  · exact .of_place rfl
  · exact .of_place rfl
  · exact .of_place rfl
  · obtain rfl : l = .filler := beq_iff_eq.mp may
    exact .of_made (.inr ⟨p, x, rfl⟩) (ownFillReport_made p x s)

theorem encoderPulse_moves (s : State) : PlaceMoves .encoderPulse s (unlessReset countPulse s) := by
  unfold unlessReset countPulse positionStep
  split
  · exact .of_place rfl
  · split
    · dsimp only
      split
      · exact ⟨.inr ⟨rfl, rfl⟩, .inl rfl⟩
      · obtain ⟨position, -, serial⟩ := examineStations_counters _ s.stepped
        exact ⟨.inr ⟨rfl, position⟩, .inl serial⟩
    · exact .of_place rfl

theorem eyeBlockingEdge_moves (s : State) : PlaceMoves .eyeBlockingEdge s (eyeEdge true blockEye s) := by
  unfold eyeEdge unlessReset
  split
  · exact .of_place rfl
  · exact .of_made (.inl rfl) (blockEye_made s.blocked)

theorem eyeClearingEdge_moves (s : State) : PlaceMoves .eyeClearingEdge s (eyeEdge false clearEye s) :=
  event_place (s := { s with pins := { s.pins with eye := false } }) (clearEye_place _)

/-- Every command but a reset moves them as `PlaceMoves` says. -/
theorem exec_placeMoves (i : Instr) (s : State) (event : i.resets = false) : ∃ t, exec i s = .next t ∧ PlaceMoves i s t := by
  cases i with
  | fillReport l p x => exact ⟨_, rfl, fillReport_moves l p x _ s⟩
  | doseQuery l p => exact ⟨_, rfl, served_place (ownDoseQuery_place l p s)⟩
  | valveHold l p => exact ⟨_, rfl, served_place (withValve_place p s (holdValve_place l s))⟩
  | valveFree l p => exact ⟨_, rfl, served_place (withValve_place p s (freeValve_place l s))⟩
  | valveAccept l p => exact ⟨_, rfl, served_place (withValve_place p s (acceptValve_place s))⟩
  | baseSet l p => exact ⟨_, rfl, served_place (ownBaseSet_place p s)⟩
  | valveView l p => exact ⟨_, rfl, served_place (ownValveView_place l p s)⟩
  | valveViewClear l v => exact ⟨_, rfl, served_place (ownValveView_place l _ s)⟩
  | layoutLoad l p => exact ⟨_, rfl, served_place (ownLayoutLoad_place p s)⟩
  | calLoad l p => exact ⟨_, rfl, served_place (ownCalLoad_place p s)⟩
  | recipeLoad l p => exact ⟨_, rfl, served_place (ownRecipeLoad_place p s)⟩
  | recordRead l p => exact ⟨_, rfl, served_place (ownRecordRead_place p s)⟩
  | start l p => exact ⟨_, rfl, served_place (ownStart_place s)⟩
  | stop l p => exact ⟨_, rfl, served_place (ownStop_place s)⟩
  | clear l p => exact ⟨_, rfl, served_place (ownClear_place s)⟩
  | flush l p => exact ⟨_, rfl, served_place (ownFlush_place s)⟩
  | restart l p => exact ⟨_, rfl, served_place (restartLine_place s)⟩
  | freeze _ _ | thaw _ _ | thawAll _ _ | captureResult _ _ | statusRead _ _ => exact ⟨_, rfl, served_place rfl⟩
  | zeroCapture l p => exact ⟨_, rfl, served_place (ownZeroCapture_place s)⟩
  | spanCapture l p => exact ⟨_, rfl, served_place (ownSpanCapture_place p s)⟩
  | canListTake l p => exact ⟨_, rfl, served_place (ownCanListTake_place p s)⟩
  | listLevelSet l p => exact ⟨_, rfl, served_place (ownListLevelSet_place p s)⟩
  | queueView l p => exact ⟨_, rfl, served_place (ownQueueView_place p s)⟩
  | causeTake l p => exact ⟨_, rfl, served_place (ownCauseTake_place l s)⟩
  | causeEnable l p => exact ⟨_, rfl, served_place (ownCauseEnable_place l p s)⟩
  | linkStats l p => exact ⟨_, rfl, served_place (ownLinkStats_place l p s)⟩
  | linkStatsClear l => exact ⟨_, rfl, served_place (ownLinkStats_place l _ s)⟩
  | unknownKind l kind p => exact ⟨_, rfl, event_place (serveUnknown_place s l kind p)⟩
  | encoderPulse => exact ⟨_, rfl, encoderPulse_moves s⟩
  | eyeBlockingEdge => exact ⟨_, rfl, eyeBlockingEdge_moves s⟩
  | eyeClearingEdge => exact ⟨_, rfl, eyeClearingEdge_moves s⟩
  | conversionComplete => exact ⟨_, rfl, event_place (completeConversion_place s)⟩
  | conversionOverflow => exact ⟨_, rfl, event_place (overflowConversion_place s)⟩
  | conversionStart => exact ⟨_, rfl, event_place (startConversion_place s)⟩
  | confirmInputActive => exact ⟨_, rfl, .of_place (confirmActive_place s)⟩
  | confirmQualified => exact ⟨_, rfl, event_place (confirmQualified_place s)⟩
  | confirmInputInactive => exact ⟨_, rfl, .of_place rfl⟩
  | confirmWindowExpiry => exact ⟨_, rfl, event_place (expireWindow_place s)⟩
  | rejectPulseEnd => exact ⟨_, rfl, event_place (rejectPulseEnd_place s)⟩
  | lcmdFallingEdge => exact ⟨_, rfl, .of_place (lineFalls_place s)⟩
  | lcmdRisingEdge => exact ⟨_, rfl, .of_place (lineRises_place s)⟩
  | lcmdSpellTimeout => exact ⟨_, rfl, event_place (spellTimeout_place s)⟩
  | lineClear => exact ⟨_, rfl, event_place (endCommand_place s (handCommand_place _ 1))⟩
  | lineFreeze => exact ⟨_, rfl, event_place (endCommand_place s (handCommand_place _ 2))⟩
  | lineThaw => exact ⟨_, rfl, event_place (endCommand_place s (handCommand_place _ 3))⟩
  | lineFlush => exact ⟨_, rfl, event_place (endCommand_place s (handCommand_place _ 4))⟩
  | lineZeroCapture => exact ⟨_, rfl, event_place (endCommand_place s (handCommand_place _ 5))⟩
  | lineCommandBadCount => exact ⟨_, rfl, event_place (endBadCount_place s)⟩
  | characterReceived l data parityBit stopBit => exact ⟨_, rfl, event_place (receiveCharacter_place s l data parityBit stopBit)⟩
  | gapEntry l => exact ⟨_, rfl, event_place (receiveGap_place s l)⟩
  | linkBreak l => exact ⟨_, rfl, event_place (breakLink_place s l)⟩
  | breakEnd ch => exact ⟨_, rfl, event_place (setPort_place s ch _)⟩
  | pauseExpiry l => exact ⟨_, rfl, event_place (expirePause_place s l)⟩
  | frameEntryTaken l => exact ⟨_, rfl, event_place (takeFrameEntry_place s l)⟩
  | heldAnswerPlaced l => exact ⟨_, rfl, event_place (placeHeld_place s l)⟩
  | characterSent ch => exact ⟨_, rfl, event_place (sendCharacter_place s ch)⟩
  | readerCharacterReceived data parityBit stopBit => exact ⟨_, rfl, event_place (readerCharacter_place s data parityBit stopBit)⟩
  | readerGapEntry => exact ⟨_, rfl, event_place (readerGap_place s)⟩
  | readerBreak => exact ⟨_, rfl, event_place (breakReader_place s)⟩
  | readerEntryTaken => exact ⟨_, rfl, event_place (readerTake_place s)⟩
  | messageMatch => exact ⟨_, rfl, event_place (handleMessage_place s)⟩
  | attentionHoldExpiry l => exact ⟨_, rfl, event_place (expireHold_place s l)⟩
  | powerOn _ | resetPinAssert | resetPinRelease _ => cases event

end

/-- Settles O25: all commands but the pulse, the arrival and the FILL REPORT leave both counters. -/
theorem positionAndSerialMoves : Obligations.PositionAndSerialMoves := fun i s t event run => by
  obtain ⟨u, e, moves⟩ := exec_placeMoves i s event
  cases e.symm.trans run
  exact moves

end Sys2Proof.Machine
